-- ==== Sys2Proof/Word.lean ====
section
/-! DEFINITION. The words of the machine: the 8-bit data word and the 16-bit address (00_scope.md R5, R8). -/

namespace Sys2Proof

/-- A `u8` of the spec: the data word, every general register, every memory cell (R5). -/
abbrev Byte := BitVec 8

/-- A `u16` of the spec: an address of the 64 KiB byte space, and the program counter (R5). -/
abbrev Addr := BitVec 16

end Sys2Proof
end

