-- ==== Sys2Proof/Config.lean ====
section
/-! DEFINITION. What is fixed for a run and written by no operation (10_state.md R28), and the free values.
The opaque constants have no value: a claim about the machine holds whatever they are. -/

namespace Sys2Proof

/-- `KERNAL_ROM`, 8192 bytes seen at $E000–$FFFF (R24). The provider's contents: a free constant (log 6). -/
opaque Config.kernalRom : BitVec 13 → Byte

/-- `BASIC_ROM`, 8192 bytes seen at $A000–$BFFF (R24). The provider's contents: a free constant (log 6). -/
opaque Config.basicRom : BitVec 13 → Byte

/-- `CHAR_ROM`, 4096 bytes seen by the video view at $D000–$DFFF (R24, R37). A free constant (log 6). -/
opaque Config.charRom : BitVec 12 → Byte

/-- `VIC_OOR_READ`: what the k-th read of $D030 answers, "a draw: any u8, chosen anew at each read" (R35).
The free value for draw number `k` (log 5). -/
opaque Config.vicOorRead : Nat → Byte

/-- `DECIMAL_V_ADC`: V after a decimal-mode ADC, a free function of (A, M, C) before it (R80, D10; log 7). -/
opaque Config.decimalVAdc : Byte → Byte → Bool → Bool

/-- `DECIMAL_V_SBC`: V after a decimal-mode SBC, a free function of (A, M, C) before it (R81, D10; log 7). -/
opaque Config.decimalVSbc : Byte → Byte → Bool → Bool

/-- A value of the parameter `CYCLES`, opcode → Nat (R6): (opcode, base count) pairs, 0 for an opcode not listed. -/
abbrev Config.CycleTable := List (Nat × Nat)

/-- A colour of the palette without its alpha (R146). -/
structure Config.Rgb where
  r : Byte
  g : Byte
  b : Byte
  deriving DecidableEq, Repr

/-- The OPEN parameters of the VideoChip (R6). `render` takes them as an argument, so that a claim about
pixels can hold for every value of them (log 13). -/
structure Config.VideoParams where
  /-- `H_BLANK_LEFT`, 0..104 (R138). -/
  hBlankLeft : Nat
  /-- `V_BLANK_TOP`, 0..32 (R138). -/
  vBlankTop : Nat
  /-- `FG_COLOR`, the index of the character foreground colour (R144). -/
  fgColor : BitVec 4
  /-- `SPRITE_X0` (R145). -/
  spriteX0 : Nat
  /-- `SPRITE_Y0` (R145). -/
  spriteY0 : Nat
  /-- `PALETTE` (R146). -/
  palette : Vector Config.Rgb 16
  deriving DecidableEq, Repr

/-- The palette of R146, "a commonly used C64 palette"; a default for tests only (D26). -/
def Config.defaultPalette : Vector Config.Rgb 16 :=
  #v[⟨0x00, 0x00, 0x00⟩, ⟨0xFF, 0xFF, 0xFF⟩, ⟨0x88, 0x00, 0x00⟩, ⟨0xAA, 0xFF, 0xEE⟩,
     ⟨0xCC, 0x44, 0xCC⟩, ⟨0x00, 0xCC, 0x55⟩, ⟨0x00, 0x00, 0xAA⟩, ⟨0xEE, 0xEE, 0x77⟩,
     ⟨0xDD, 0x88, 0x55⟩, ⟨0x66, 0x44, 0x00⟩, ⟨0xFF, 0x77, 0x77⟩, ⟨0x33, 0x33, 0x33⟩,
     ⟨0x77, 0x77, 0x77⟩, ⟨0xAA, 0xFF, 0x66⟩, ⟨0x00, 0x88, 0xFF⟩, ⟨0xBB, 0xBB, 0xBB⟩]

/-- The decided defaults of the video parameters (D20, D21, D25, D26); for tests only. -/
def Config.defaultVideo : Config.VideoParams where
  hBlankLeft := 0
  vBlankTop := 0
  fgColor := 14
  spriteX0 := 24
  spriteY0 := 50
  palette := Config.defaultPalette

end Sys2Proof
end

