-- ==== Sys2Proof/Syntax.lean ====
section
/-! DEFINITION. The instructions as syntax: one constructor of `Instr` for each of the 151 rows of the opcode
table (30_encoding.md R55, R56), with the operand bytes the row's addressing mode carries (R49). -/

namespace Sys2Proof

/-- The 56 mnemonics of the opcode map (R56). -/
inductive Mnemonic where
  | adc | and | asl | bcc | bcs | beq | bit | bmi
  | bne | bpl | brk | bvc | bvs | clc | cld | cli
  | clv | cmp | cpx | cpy | dec | dex | dey | eor
  | inc | inx | iny | jmp | jsr | lda | ldx | ldy
  | lsr | nop | ora | pha | php | pla | plp | rol
  | ror | rti | rts | sbc | sec | sed | sei | sta
  | stx | sty | tax | tay | tsx | txa | txs | tya
  deriving DecidableEq, Repr

/-- The thirteen addressing modes (R49, R52). -/
inductive Mode where
  /-- implied -/
  | imp
  /-- accumulator -/
  | acc
  /-- immediate -/
  | imm
  /-- zero page -/
  | zp
  /-- zero page,X -/
  | zpx
  /-- zero page,Y -/
  | zpy
  /-- absolute -/
  | abs
  /-- absolute,X -/
  | abx
  /-- absolute,Y -/
  | aby
  /-- (zp,X) -/
  | izx
  /-- (zp),Y -/
  | izy
  /-- indirect, JMP only -/
  | ind
  /-- relative, branches only -/
  | rel
  deriving DecidableEq, Repr

/-- The instruction's length in bytes, opcode included, which the mode alone fixes (R49, R50). -/
def Mode.length : Mode → Nat
  | .imp | .acc => 1
  | .imm | .zp | .zpx | .zpy | .izx | .izy | .rel => 2
  | .abs | .abx | .aby | .ind => 3

/-- One constructor per row of the opcode map: the mnemonic, then the mode where the mnemonic has several.
`v` is an immediate byte, `z` a zero-page byte, `off` a branch offset, `adr` the 16-bit operand `hi:lo` (R49). -/
inductive Instr where
  | adcImm (v : Byte)
  | adcZp (z : Byte)
  | adcZpx (z : Byte)
  | adcAbs (adr : Addr)
  | adcAbx (adr : Addr)
  | adcAby (adr : Addr)
  | adcIzx (z : Byte)
  | adcIzy (z : Byte)
  | andImm (v : Byte)
  | andZp (z : Byte)
  | andZpx (z : Byte)
  | andAbs (adr : Addr)
  | andAbx (adr : Addr)
  | andAby (adr : Addr)
  | andIzx (z : Byte)
  | andIzy (z : Byte)
  | aslAcc
  | aslZp (z : Byte)
  | aslZpx (z : Byte)
  | aslAbs (adr : Addr)
  | aslAbx (adr : Addr)
  | bcc (off : Byte)
  | bcs (off : Byte)
  | beq (off : Byte)
  | bitZp (z : Byte)
  | bitAbs (adr : Addr)
  | bmi (off : Byte)
  | bne (off : Byte)
  | bpl (off : Byte)
  | brk
  | bvc (off : Byte)
  | bvs (off : Byte)
  | clc
  | cld
  | cli
  | clv
  | cmpImm (v : Byte)
  | cmpZp (z : Byte)
  | cmpZpx (z : Byte)
  | cmpAbs (adr : Addr)
  | cmpAbx (adr : Addr)
  | cmpAby (adr : Addr)
  | cmpIzx (z : Byte)
  | cmpIzy (z : Byte)
  | cpxImm (v : Byte)
  | cpxZp (z : Byte)
  | cpxAbs (adr : Addr)
  | cpyImm (v : Byte)
  | cpyZp (z : Byte)
  | cpyAbs (adr : Addr)
  | decZp (z : Byte)
  | decZpx (z : Byte)
  | decAbs (adr : Addr)
  | decAbx (adr : Addr)
  | dex
  | dey
  | eorImm (v : Byte)
  | eorZp (z : Byte)
  | eorZpx (z : Byte)
  | eorAbs (adr : Addr)
  | eorAbx (adr : Addr)
  | eorAby (adr : Addr)
  | eorIzx (z : Byte)
  | eorIzy (z : Byte)
  | incZp (z : Byte)
  | incZpx (z : Byte)
  | incAbs (adr : Addr)
  | incAbx (adr : Addr)
  | inx
  | iny
  | jmpAbs (adr : Addr)
  | jmpInd (adr : Addr)
  | jsr (adr : Addr)
  | ldaImm (v : Byte)
  | ldaZp (z : Byte)
  | ldaZpx (z : Byte)
  | ldaAbs (adr : Addr)
  | ldaAbx (adr : Addr)
  | ldaAby (adr : Addr)
  | ldaIzx (z : Byte)
  | ldaIzy (z : Byte)
  | ldxImm (v : Byte)
  | ldxZp (z : Byte)
  | ldxZpy (z : Byte)
  | ldxAbs (adr : Addr)
  | ldxAby (adr : Addr)
  | ldyImm (v : Byte)
  | ldyZp (z : Byte)
  | ldyZpx (z : Byte)
  | ldyAbs (adr : Addr)
  | ldyAbx (adr : Addr)
  | lsrAcc
  | lsrZp (z : Byte)
  | lsrZpx (z : Byte)
  | lsrAbs (adr : Addr)
  | lsrAbx (adr : Addr)
  | nop
  | oraImm (v : Byte)
  | oraZp (z : Byte)
  | oraZpx (z : Byte)
  | oraAbs (adr : Addr)
  | oraAbx (adr : Addr)
  | oraAby (adr : Addr)
  | oraIzx (z : Byte)
  | oraIzy (z : Byte)
  | pha
  | php
  | pla
  | plp
  | rolAcc
  | rolZp (z : Byte)
  | rolZpx (z : Byte)
  | rolAbs (adr : Addr)
  | rolAbx (adr : Addr)
  | rorAcc
  | rorZp (z : Byte)
  | rorZpx (z : Byte)
  | rorAbs (adr : Addr)
  | rorAbx (adr : Addr)
  | rti
  | rts
  | sbcImm (v : Byte)
  | sbcZp (z : Byte)
  | sbcZpx (z : Byte)
  | sbcAbs (adr : Addr)
  | sbcAbx (adr : Addr)
  | sbcAby (adr : Addr)
  | sbcIzx (z : Byte)
  | sbcIzy (z : Byte)
  | sec
  | sed
  | sei
  | staZp (z : Byte)
  | staZpx (z : Byte)
  | staAbs (adr : Addr)
  | staAbx (adr : Addr)
  | staAby (adr : Addr)
  | staIzx (z : Byte)
  | staIzy (z : Byte)
  | stxZp (z : Byte)
  | stxZpy (z : Byte)
  | stxAbs (adr : Addr)
  | styZp (z : Byte)
  | styZpx (z : Byte)
  | styAbs (adr : Addr)
  | tax
  | tay
  | tsx
  | txa
  | txs
  | tya
  deriving DecidableEq, Repr

/-- The mnemonic of an instruction, as R56 spells its row. -/
def Instr.mnemonic : Instr → Mnemonic
  | .adcIzx _ | .adcZp _ | .adcImm _ | .adcAbs _ | .adcIzy _ | .adcZpx _ | .adcAby _ | .adcAbx _ => .adc
  | .andIzx _ | .andZp _ | .andImm _ | .andAbs _ | .andIzy _ | .andZpx _ | .andAby _ | .andAbx _ => .and
  | .aslZp _ | .aslAcc | .aslAbs _ | .aslZpx _ | .aslAbx _ => .asl
  | .bcc _ => .bcc
  | .bcs _ => .bcs
  | .beq _ => .beq
  | .bitZp _ | .bitAbs _ => .bit
  | .bmi _ => .bmi
  | .bne _ => .bne
  | .bpl _ => .bpl
  | .brk => .brk
  | .bvc _ => .bvc
  | .bvs _ => .bvs
  | .clc => .clc
  | .cld => .cld
  | .cli => .cli
  | .clv => .clv
  | .cmpIzx _ | .cmpZp _ | .cmpImm _ | .cmpAbs _ | .cmpIzy _ | .cmpZpx _ | .cmpAby _ | .cmpAbx _ => .cmp
  | .cpxImm _ | .cpxZp _ | .cpxAbs _ => .cpx
  | .cpyImm _ | .cpyZp _ | .cpyAbs _ => .cpy
  | .decZp _ | .decAbs _ | .decZpx _ | .decAbx _ => .dec
  | .dex => .dex
  | .dey => .dey
  | .eorIzx _ | .eorZp _ | .eorImm _ | .eorAbs _ | .eorIzy _ | .eorZpx _ | .eorAby _ | .eorAbx _ => .eor
  | .incZp _ | .incAbs _ | .incZpx _ | .incAbx _ => .inc
  | .inx => .inx
  | .iny => .iny
  | .jmpAbs _ | .jmpInd _ => .jmp
  | .jsr _ => .jsr
  | .ldaIzx _ | .ldaZp _ | .ldaImm _ | .ldaAbs _ | .ldaIzy _ | .ldaZpx _ | .ldaAby _ | .ldaAbx _ => .lda
  | .ldxImm _ | .ldxZp _ | .ldxAbs _ | .ldxZpy _ | .ldxAby _ => .ldx
  | .ldyImm _ | .ldyZp _ | .ldyAbs _ | .ldyZpx _ | .ldyAbx _ => .ldy
  | .lsrZp _ | .lsrAcc | .lsrAbs _ | .lsrZpx _ | .lsrAbx _ => .lsr
  | .nop => .nop
  | .oraIzx _ | .oraZp _ | .oraImm _ | .oraAbs _ | .oraIzy _ | .oraZpx _ | .oraAby _ | .oraAbx _ => .ora
  | .pha => .pha
  | .php => .php
  | .pla => .pla
  | .plp => .plp
  | .rolZp _ | .rolAcc | .rolAbs _ | .rolZpx _ | .rolAbx _ => .rol
  | .rorZp _ | .rorAcc | .rorAbs _ | .rorZpx _ | .rorAbx _ => .ror
  | .rti => .rti
  | .rts => .rts
  | .sbcIzx _ | .sbcZp _ | .sbcImm _ | .sbcAbs _ | .sbcIzy _ | .sbcZpx _ | .sbcAby _ | .sbcAbx _ => .sbc
  | .sec => .sec
  | .sed => .sed
  | .sei => .sei
  | .staIzx _ | .staZp _ | .staAbs _ | .staIzy _ | .staZpx _ | .staAby _ | .staAbx _ => .sta
  | .stxZp _ | .stxAbs _ | .stxZpy _ => .stx
  | .styZp _ | .styAbs _ | .styZpx _ => .sty
  | .tax => .tax
  | .tay => .tay
  | .tsx => .tsx
  | .txa => .txa
  | .txs => .txs
  | .tya => .tya

/-- The addressing mode of an instruction: its column in R56. -/
def Instr.mode : Instr → Mode
  | .brk | .php | .clc | .plp | .sec | .rti | .pha | .cli | .rts | .pla | .sei | .dey | .txa | .tya | .txs
  | .tay | .tax | .clv | .tsx | .iny | .dex | .cld | .inx | .nop | .sed => .imp
  | .aslAcc | .rolAcc | .lsrAcc | .rorAcc => .acc
  | .oraImm _ | .andImm _ | .eorImm _ | .adcImm _ | .ldyImm _ | .ldxImm _ | .ldaImm _ | .cpyImm _ | .cmpImm _
  | .cpxImm _ | .sbcImm _ => .imm
  | .oraZp _ | .aslZp _ | .bitZp _ | .andZp _ | .rolZp _ | .eorZp _ | .lsrZp _ | .adcZp _ | .rorZp _
  | .styZp _ | .staZp _ | .stxZp _ | .ldyZp _ | .ldaZp _ | .ldxZp _ | .cpyZp _ | .cmpZp _ | .decZp _
  | .cpxZp _ | .sbcZp _ | .incZp _ => .zp
  | .oraZpx _ | .aslZpx _ | .andZpx _ | .rolZpx _ | .eorZpx _ | .lsrZpx _ | .adcZpx _ | .rorZpx _ | .styZpx _
  | .staZpx _ | .ldyZpx _ | .ldaZpx _ | .cmpZpx _ | .decZpx _ | .sbcZpx _ | .incZpx _ => .zpx
  | .stxZpy _ | .ldxZpy _ => .zpy
  | .oraAbs _ | .aslAbs _ | .jsr _ | .bitAbs _ | .andAbs _ | .rolAbs _ | .jmpAbs _ | .eorAbs _ | .lsrAbs _
  | .adcAbs _ | .rorAbs _ | .styAbs _ | .staAbs _ | .stxAbs _ | .ldyAbs _ | .ldaAbs _ | .ldxAbs _ | .cpyAbs _
  | .cmpAbs _ | .decAbs _ | .cpxAbs _ | .sbcAbs _ | .incAbs _ => .abs
  | .oraAbx _ | .aslAbx _ | .andAbx _ | .rolAbx _ | .eorAbx _ | .lsrAbx _ | .adcAbx _ | .rorAbx _ | .staAbx _
  | .ldyAbx _ | .ldaAbx _ | .cmpAbx _ | .decAbx _ | .sbcAbx _ | .incAbx _ => .abx
  | .oraAby _ | .andAby _ | .eorAby _ | .adcAby _ | .staAby _ | .ldaAby _ | .ldxAby _ | .cmpAby _ | .sbcAby _ => .aby
  | .oraIzx _ | .andIzx _ | .eorIzx _ | .adcIzx _ | .staIzx _ | .ldaIzx _ | .cmpIzx _ | .sbcIzx _ => .izx
  | .oraIzy _ | .andIzy _ | .eorIzy _ | .adcIzy _ | .staIzy _ | .ldaIzy _ | .cmpIzy _ | .sbcIzy _ => .izy
  | .jmpInd _ => .ind
  | .bpl _ | .bmi _ | .bvc _ | .bvs _ | .bcc _ | .bcs _ | .bne _ | .beq _ => .rel

/-- The instruction's length in bytes (R50). -/
def Instr.length (i : Instr) : Nat := i.mode.length

end Sys2Proof
end

