-- ==== Sys2Proof/WellFormed.lean ====
section
/-! DEFINITION. Well-formedness: which (mnemonic, mode) pairs exist (R56), the parameter ranges of R138, and
the address ranges of the host's calls (R152, R153). -/

namespace Sys2Proof

/-- The modes each mnemonic has: the filled cells of its row in R56. -/
def Mnemonic.modes : Mnemonic → List Mode
  | .adc | .and | .cmp | .eor | .lda | .ora | .sbc => [.imm, .zp, .zpx, .abs, .abx, .aby, .izx, .izy]
  | .asl | .lsr | .rol | .ror => [.acc, .zp, .zpx, .abs, .abx]
  | .bcc | .bcs | .beq | .bmi | .bne | .bpl | .bvc | .bvs => [.rel]
  | .bit => [.zp, .abs]
  | .brk | .clc | .cld | .cli | .clv | .dex | .dey | .inx | .iny | .nop | .pha | .php | .pla | .plp | .rti
  | .rts | .sec | .sed | .sei | .tax | .tay | .tsx | .txa | .txs | .tya => [.imp]
  | .cpx | .cpy => [.imm, .zp, .abs]
  | .dec | .inc => [.zp, .zpx, .abs, .abx]
  | .jmp => [.abs, .ind]
  | .jsr => [.abs]
  | .ldx => [.imm, .zp, .zpy, .abs, .aby]
  | .ldy => [.imm, .zp, .zpx, .abs, .abx]
  | .sta => [.zp, .zpx, .abs, .abx, .aby, .izx, .izy]
  | .stx => [.zp, .zpy, .abs]
  | .sty => [.zp, .zpx, .abs]

/-- Whether the opcode map has a row for this mnemonic in this mode (R56). -/
def legalForm (m : Mnemonic) (md : Mode) : Bool := m.modes.contains md

/-- An instruction is well formed when R56 lists its mode under its mnemonic. The operand fields need no check:
their widths are exactly those of the operand bytes (R49). -/
def Instr.wellFormed (i : Instr) : Bool := legalForm i.mnemonic i.mode

/-- The ranges R138 and D20 give the two blank margins; the other parameters are bounded by their types. -/
def Config.VideoParams.wellFormed (p : Config.VideoParams) : Bool :=
  decide (p.hBlankLeft ≤ 104) && decide (p.vBlankTop ≤ 32)

/-- `loadBytes(a, bytes)` is refused unless a + len <= 65536 (R152). -/
def loadFits (a len : Nat) : Bool := decide (a + len ≤ 65536)

/-- `setProgramCounter(a)` is refused unless 0 <= a <= $FFFF (R153). -/
def pcFits (a : Nat) : Bool := decide (a ≤ 0xFFFF)

end Sys2Proof
end

