-- ==== Sys2Proof/Decode.lean ====
section
/-! DEFINITION. The opcode map (30_encoding.md R55), the decoder from bytes, total and rejecting by name, and
the encoder written from the listing by mnemonic (R56). -/

namespace Sys2Proof

/-- `hi:lo`, the u16 value hi*256 + lo (R8). -/
def hiLo (hi lo : Byte) : Addr := hi ++ lo

/-- The high byte of a 16-bit value: `a[15:8]`, the page of an address (R9). -/
def hiByte (a : Addr) : Byte := a.extractLsb' 8 8

/-- The low byte of a 16-bit value: `a[7:0]` (R8). -/
def loByte (a : Addr) : Byte := a.setWidth 8

/-- How a row's instruction is made from the operand bytes after the opcode: formats F1, F2 and F3 (R49). -/
inductive Format where
  | f1 (i : Instr)
  | f2 (make : Byte → Instr)
  | f3 (make : Addr → Instr)

/-- One cell of the opcode map (R55). -/
structure OpcodeRow where
  opcode : Byte
  mnemonic : Mnemonic
  mode : Mode
  /-- The base count of the cell, the default of `CYCLES[op]` (D3). -/
  cycles : Nat
  /-- The `*` of the cell: +1 cycle on a page crossing. -/
  cross : Bool
  format : Format

/-- Row 0x of the opcode map (R55). -/
def opcodeRow0 : List OpcodeRow := [
  ⟨0x00, .brk, .imp, 7, false, .f1 .brk⟩,
  ⟨0x01, .ora, .izx, 6, false, .f2 .oraIzx⟩,
  ⟨0x05, .ora, .zp, 3, false, .f2 .oraZp⟩,
  ⟨0x06, .asl, .zp, 5, false, .f2 .aslZp⟩,
  ⟨0x08, .php, .imp, 3, false, .f1 .php⟩,
  ⟨0x09, .ora, .imm, 2, false, .f2 .oraImm⟩,
  ⟨0x0A, .asl, .acc, 2, false, .f1 .aslAcc⟩,
  ⟨0x0D, .ora, .abs, 4, false, .f3 .oraAbs⟩,
  ⟨0x0E, .asl, .abs, 6, false, .f3 .aslAbs⟩]

/-- Row 1x of the opcode map (R55). -/
def opcodeRow1 : List OpcodeRow := [
  ⟨0x10, .bpl, .rel, 2, false, .f2 .bpl⟩,
  ⟨0x11, .ora, .izy, 5, true, .f2 .oraIzy⟩,
  ⟨0x15, .ora, .zpx, 4, false, .f2 .oraZpx⟩,
  ⟨0x16, .asl, .zpx, 6, false, .f2 .aslZpx⟩,
  ⟨0x18, .clc, .imp, 2, false, .f1 .clc⟩,
  ⟨0x19, .ora, .aby, 4, true, .f3 .oraAby⟩,
  ⟨0x1D, .ora, .abx, 4, true, .f3 .oraAbx⟩,
  ⟨0x1E, .asl, .abx, 7, false, .f3 .aslAbx⟩]

/-- Row 2x of the opcode map (R55). -/
def opcodeRow2 : List OpcodeRow := [
  ⟨0x20, .jsr, .abs, 6, false, .f3 .jsr⟩,
  ⟨0x21, .and, .izx, 6, false, .f2 .andIzx⟩,
  ⟨0x24, .bit, .zp, 3, false, .f2 .bitZp⟩,
  ⟨0x25, .and, .zp, 3, false, .f2 .andZp⟩,
  ⟨0x26, .rol, .zp, 5, false, .f2 .rolZp⟩,
  ⟨0x28, .plp, .imp, 4, false, .f1 .plp⟩,
  ⟨0x29, .and, .imm, 2, false, .f2 .andImm⟩,
  ⟨0x2A, .rol, .acc, 2, false, .f1 .rolAcc⟩,
  ⟨0x2C, .bit, .abs, 4, false, .f3 .bitAbs⟩,
  ⟨0x2D, .and, .abs, 4, false, .f3 .andAbs⟩,
  ⟨0x2E, .rol, .abs, 6, false, .f3 .rolAbs⟩]

/-- Row 3x of the opcode map (R55). -/
def opcodeRow3 : List OpcodeRow := [
  ⟨0x30, .bmi, .rel, 2, false, .f2 .bmi⟩,
  ⟨0x31, .and, .izy, 5, true, .f2 .andIzy⟩,
  ⟨0x35, .and, .zpx, 4, false, .f2 .andZpx⟩,
  ⟨0x36, .rol, .zpx, 6, false, .f2 .rolZpx⟩,
  ⟨0x38, .sec, .imp, 2, false, .f1 .sec⟩,
  ⟨0x39, .and, .aby, 4, true, .f3 .andAby⟩,
  ⟨0x3D, .and, .abx, 4, true, .f3 .andAbx⟩,
  ⟨0x3E, .rol, .abx, 7, false, .f3 .rolAbx⟩]

/-- Row 4x of the opcode map (R55). -/
def opcodeRow4 : List OpcodeRow := [
  ⟨0x40, .rti, .imp, 6, false, .f1 .rti⟩,
  ⟨0x41, .eor, .izx, 6, false, .f2 .eorIzx⟩,
  ⟨0x45, .eor, .zp, 3, false, .f2 .eorZp⟩,
  ⟨0x46, .lsr, .zp, 5, false, .f2 .lsrZp⟩,
  ⟨0x48, .pha, .imp, 3, false, .f1 .pha⟩,
  ⟨0x49, .eor, .imm, 2, false, .f2 .eorImm⟩,
  ⟨0x4A, .lsr, .acc, 2, false, .f1 .lsrAcc⟩,
  ⟨0x4C, .jmp, .abs, 3, false, .f3 .jmpAbs⟩,
  ⟨0x4D, .eor, .abs, 4, false, .f3 .eorAbs⟩,
  ⟨0x4E, .lsr, .abs, 6, false, .f3 .lsrAbs⟩]

/-- Row 5x of the opcode map (R55). -/
def opcodeRow5 : List OpcodeRow := [
  ⟨0x50, .bvc, .rel, 2, false, .f2 .bvc⟩,
  ⟨0x51, .eor, .izy, 5, true, .f2 .eorIzy⟩,
  ⟨0x55, .eor, .zpx, 4, false, .f2 .eorZpx⟩,
  ⟨0x56, .lsr, .zpx, 6, false, .f2 .lsrZpx⟩,
  ⟨0x58, .cli, .imp, 2, false, .f1 .cli⟩,
  ⟨0x59, .eor, .aby, 4, true, .f3 .eorAby⟩,
  ⟨0x5D, .eor, .abx, 4, true, .f3 .eorAbx⟩,
  ⟨0x5E, .lsr, .abx, 7, false, .f3 .lsrAbx⟩]

/-- Row 6x of the opcode map (R55). -/
def opcodeRow6 : List OpcodeRow := [
  ⟨0x60, .rts, .imp, 6, false, .f1 .rts⟩,
  ⟨0x61, .adc, .izx, 6, false, .f2 .adcIzx⟩,
  ⟨0x65, .adc, .zp, 3, false, .f2 .adcZp⟩,
  ⟨0x66, .ror, .zp, 5, false, .f2 .rorZp⟩,
  ⟨0x68, .pla, .imp, 4, false, .f1 .pla⟩,
  ⟨0x69, .adc, .imm, 2, false, .f2 .adcImm⟩,
  ⟨0x6A, .ror, .acc, 2, false, .f1 .rorAcc⟩,
  ⟨0x6C, .jmp, .ind, 5, false, .f3 .jmpInd⟩,
  ⟨0x6D, .adc, .abs, 4, false, .f3 .adcAbs⟩,
  ⟨0x6E, .ror, .abs, 6, false, .f3 .rorAbs⟩]

/-- Row 7x of the opcode map (R55). -/
def opcodeRow7 : List OpcodeRow := [
  ⟨0x70, .bvs, .rel, 2, false, .f2 .bvs⟩,
  ⟨0x71, .adc, .izy, 5, true, .f2 .adcIzy⟩,
  ⟨0x75, .adc, .zpx, 4, false, .f2 .adcZpx⟩,
  ⟨0x76, .ror, .zpx, 6, false, .f2 .rorZpx⟩,
  ⟨0x78, .sei, .imp, 2, false, .f1 .sei⟩,
  ⟨0x79, .adc, .aby, 4, true, .f3 .adcAby⟩,
  ⟨0x7D, .adc, .abx, 4, true, .f3 .adcAbx⟩,
  ⟨0x7E, .ror, .abx, 7, false, .f3 .rorAbx⟩]

/-- Row 8x of the opcode map (R55). -/
def opcodeRow8 : List OpcodeRow := [
  ⟨0x81, .sta, .izx, 6, false, .f2 .staIzx⟩,
  ⟨0x84, .sty, .zp, 3, false, .f2 .styZp⟩,
  ⟨0x85, .sta, .zp, 3, false, .f2 .staZp⟩,
  ⟨0x86, .stx, .zp, 3, false, .f2 .stxZp⟩,
  ⟨0x88, .dey, .imp, 2, false, .f1 .dey⟩,
  ⟨0x8A, .txa, .imp, 2, false, .f1 .txa⟩,
  ⟨0x8C, .sty, .abs, 4, false, .f3 .styAbs⟩,
  ⟨0x8D, .sta, .abs, 4, false, .f3 .staAbs⟩,
  ⟨0x8E, .stx, .abs, 4, false, .f3 .stxAbs⟩]

/-- Row 9x of the opcode map (R55). -/
def opcodeRow9 : List OpcodeRow := [
  ⟨0x90, .bcc, .rel, 2, false, .f2 .bcc⟩,
  ⟨0x91, .sta, .izy, 6, false, .f2 .staIzy⟩,
  ⟨0x94, .sty, .zpx, 4, false, .f2 .styZpx⟩,
  ⟨0x95, .sta, .zpx, 4, false, .f2 .staZpx⟩,
  ⟨0x96, .stx, .zpy, 4, false, .f2 .stxZpy⟩,
  ⟨0x98, .tya, .imp, 2, false, .f1 .tya⟩,
  ⟨0x99, .sta, .aby, 5, false, .f3 .staAby⟩,
  ⟨0x9A, .txs, .imp, 2, false, .f1 .txs⟩,
  ⟨0x9D, .sta, .abx, 5, false, .f3 .staAbx⟩]

/-- Row Ax of the opcode map (R55). -/
def opcodeRowA : List OpcodeRow := [
  ⟨0xA0, .ldy, .imm, 2, false, .f2 .ldyImm⟩,
  ⟨0xA1, .lda, .izx, 6, false, .f2 .ldaIzx⟩,
  ⟨0xA2, .ldx, .imm, 2, false, .f2 .ldxImm⟩,
  ⟨0xA4, .ldy, .zp, 3, false, .f2 .ldyZp⟩,
  ⟨0xA5, .lda, .zp, 3, false, .f2 .ldaZp⟩,
  ⟨0xA6, .ldx, .zp, 3, false, .f2 .ldxZp⟩,
  ⟨0xA8, .tay, .imp, 2, false, .f1 .tay⟩,
  ⟨0xA9, .lda, .imm, 2, false, .f2 .ldaImm⟩,
  ⟨0xAA, .tax, .imp, 2, false, .f1 .tax⟩,
  ⟨0xAC, .ldy, .abs, 4, false, .f3 .ldyAbs⟩,
  ⟨0xAD, .lda, .abs, 4, false, .f3 .ldaAbs⟩,
  ⟨0xAE, .ldx, .abs, 4, false, .f3 .ldxAbs⟩]

/-- Row Bx of the opcode map (R55). -/
def opcodeRowB : List OpcodeRow := [
  ⟨0xB0, .bcs, .rel, 2, false, .f2 .bcs⟩,
  ⟨0xB1, .lda, .izy, 5, true, .f2 .ldaIzy⟩,
  ⟨0xB4, .ldy, .zpx, 4, false, .f2 .ldyZpx⟩,
  ⟨0xB5, .lda, .zpx, 4, false, .f2 .ldaZpx⟩,
  ⟨0xB6, .ldx, .zpy, 4, false, .f2 .ldxZpy⟩,
  ⟨0xB8, .clv, .imp, 2, false, .f1 .clv⟩,
  ⟨0xB9, .lda, .aby, 4, true, .f3 .ldaAby⟩,
  ⟨0xBA, .tsx, .imp, 2, false, .f1 .tsx⟩,
  ⟨0xBC, .ldy, .abx, 4, true, .f3 .ldyAbx⟩,
  ⟨0xBD, .lda, .abx, 4, true, .f3 .ldaAbx⟩,
  ⟨0xBE, .ldx, .aby, 4, true, .f3 .ldxAby⟩]

/-- Row Cx of the opcode map (R55). -/
def opcodeRowC : List OpcodeRow := [
  ⟨0xC0, .cpy, .imm, 2, false, .f2 .cpyImm⟩,
  ⟨0xC1, .cmp, .izx, 6, false, .f2 .cmpIzx⟩,
  ⟨0xC4, .cpy, .zp, 3, false, .f2 .cpyZp⟩,
  ⟨0xC5, .cmp, .zp, 3, false, .f2 .cmpZp⟩,
  ⟨0xC6, .dec, .zp, 5, false, .f2 .decZp⟩,
  ⟨0xC8, .iny, .imp, 2, false, .f1 .iny⟩,
  ⟨0xC9, .cmp, .imm, 2, false, .f2 .cmpImm⟩,
  ⟨0xCA, .dex, .imp, 2, false, .f1 .dex⟩,
  ⟨0xCC, .cpy, .abs, 4, false, .f3 .cpyAbs⟩,
  ⟨0xCD, .cmp, .abs, 4, false, .f3 .cmpAbs⟩,
  ⟨0xCE, .dec, .abs, 6, false, .f3 .decAbs⟩]

/-- Row Dx of the opcode map (R55). -/
def opcodeRowD : List OpcodeRow := [
  ⟨0xD0, .bne, .rel, 2, false, .f2 .bne⟩,
  ⟨0xD1, .cmp, .izy, 5, true, .f2 .cmpIzy⟩,
  ⟨0xD5, .cmp, .zpx, 4, false, .f2 .cmpZpx⟩,
  ⟨0xD6, .dec, .zpx, 6, false, .f2 .decZpx⟩,
  ⟨0xD8, .cld, .imp, 2, false, .f1 .cld⟩,
  ⟨0xD9, .cmp, .aby, 4, true, .f3 .cmpAby⟩,
  ⟨0xDD, .cmp, .abx, 4, true, .f3 .cmpAbx⟩,
  ⟨0xDE, .dec, .abx, 7, false, .f3 .decAbx⟩]

/-- Row Ex of the opcode map (R55). -/
def opcodeRowE : List OpcodeRow := [
  ⟨0xE0, .cpx, .imm, 2, false, .f2 .cpxImm⟩,
  ⟨0xE1, .sbc, .izx, 6, false, .f2 .sbcIzx⟩,
  ⟨0xE4, .cpx, .zp, 3, false, .f2 .cpxZp⟩,
  ⟨0xE5, .sbc, .zp, 3, false, .f2 .sbcZp⟩,
  ⟨0xE6, .inc, .zp, 5, false, .f2 .incZp⟩,
  ⟨0xE8, .inx, .imp, 2, false, .f1 .inx⟩,
  ⟨0xE9, .sbc, .imm, 2, false, .f2 .sbcImm⟩,
  ⟨0xEA, .nop, .imp, 2, false, .f1 .nop⟩,
  ⟨0xEC, .cpx, .abs, 4, false, .f3 .cpxAbs⟩,
  ⟨0xED, .sbc, .abs, 4, false, .f3 .sbcAbs⟩,
  ⟨0xEE, .inc, .abs, 6, false, .f3 .incAbs⟩]

/-- Row Fx of the opcode map (R55). -/
def opcodeRowF : List OpcodeRow := [
  ⟨0xF0, .beq, .rel, 2, false, .f2 .beq⟩,
  ⟨0xF1, .sbc, .izy, 5, true, .f2 .sbcIzy⟩,
  ⟨0xF5, .sbc, .zpx, 4, false, .f2 .sbcZpx⟩,
  ⟨0xF6, .inc, .zpx, 6, false, .f2 .incZpx⟩,
  ⟨0xF8, .sed, .imp, 2, false, .f1 .sed⟩,
  ⟨0xF9, .sbc, .aby, 4, true, .f3 .sbcAby⟩,
  ⟨0xFD, .sbc, .abx, 4, true, .f3 .sbcAbx⟩,
  ⟨0xFE, .inc, .abx, 7, false, .f3 .incAbx⟩]

/-- The opcode map: 151 rows (R55). -/
def opcodeMap : List OpcodeRow :=
  opcodeRow0 ++ opcodeRow1 ++ opcodeRow2 ++ opcodeRow3 ++
  opcodeRow4 ++ opcodeRow5 ++ opcodeRow6 ++ opcodeRow7 ++
  opcodeRow8 ++ opcodeRow9 ++ opcodeRowA ++ opcodeRowB ++
  opcodeRowC ++ opcodeRowD ++ opcodeRowE ++ opcodeRowF

/-- The decided default of `CYCLES`: the base column of the opcode map (R55, R123, D3). -/
def defaultCycles : Config.CycleTable := opcodeMap.map (fun r => (r.opcode.toNat, r.cycles))

/-- `TABLE[op]`: the map's row for an opcode byte, or none for an unimplemented one (R55, R57, R122). -/
def lookup (op : Byte) : Option OpcodeRow := opcodeMap.find? (fun r => r.opcode == op)

/-- Why bytes are no instruction. -/
inductive Reject where
  /-- There is no opcode byte. -/
  | noBytes
  /-- The opcode byte is not in the opcode map (R57). -/
  | unimplementedOpcode (op : Byte)
  /-- The opcode is implemented and an operand byte is missing. -/
  | truncated (op : Byte)
  deriving DecidableEq, Repr

/-- Decode one instruction from the front of a byte list and give the rest back (R49, R51, R55). -/
def decode : List Byte → Except Reject (Instr × List Byte)
  | [] => .error .noBytes
  | op :: rest =>
    match lookup op with
    | none => .error (.unimplementedOpcode op)
    | some row =>
      match row.format, rest with
      | .f1 i, bs => .ok (i, bs)
      | .f2 make, b1 :: bs => .ok (make b1, bs)
      | .f3 make, lo :: hi :: bs => .ok (make (hiLo hi lo), bs)
      | _, _ => .error (.truncated op)

/-- How many bytes the fetch takes for an opcode byte: the mode's length, and for an unimplemented opcode the
opcode alone, since "no operand byte is fetched" (R50). -/
def fetchLength (op : Byte) : Nat :=
  match lookup op with
  | some row => row.mode.length
  | none => 1

/-- The opcode byte of an instruction, from the listing by mnemonic (R56). -/
def Instr.opcode : Instr → Byte
  | .adcImm _ => 0x69
  | .adcZp _ => 0x65
  | .adcZpx _ => 0x75
  | .adcAbs _ => 0x6D
  | .adcAbx _ => 0x7D
  | .adcAby _ => 0x79
  | .adcIzx _ => 0x61
  | .adcIzy _ => 0x71
  | .andImm _ => 0x29
  | .andZp _ => 0x25
  | .andZpx _ => 0x35
  | .andAbs _ => 0x2D
  | .andAbx _ => 0x3D
  | .andAby _ => 0x39
  | .andIzx _ => 0x21
  | .andIzy _ => 0x31
  | .aslAcc => 0x0A
  | .aslZp _ => 0x06
  | .aslZpx _ => 0x16
  | .aslAbs _ => 0x0E
  | .aslAbx _ => 0x1E
  | .bcc _ => 0x90
  | .bcs _ => 0xB0
  | .beq _ => 0xF0
  | .bitZp _ => 0x24
  | .bitAbs _ => 0x2C
  | .bmi _ => 0x30
  | .bne _ => 0xD0
  | .bpl _ => 0x10
  | .brk => 0x00
  | .bvc _ => 0x50
  | .bvs _ => 0x70
  | .clc => 0x18
  | .cld => 0xD8
  | .cli => 0x58
  | .clv => 0xB8
  | .cmpImm _ => 0xC9
  | .cmpZp _ => 0xC5
  | .cmpZpx _ => 0xD5
  | .cmpAbs _ => 0xCD
  | .cmpAbx _ => 0xDD
  | .cmpAby _ => 0xD9
  | .cmpIzx _ => 0xC1
  | .cmpIzy _ => 0xD1
  | .cpxImm _ => 0xE0
  | .cpxZp _ => 0xE4
  | .cpxAbs _ => 0xEC
  | .cpyImm _ => 0xC0
  | .cpyZp _ => 0xC4
  | .cpyAbs _ => 0xCC
  | .decZp _ => 0xC6
  | .decZpx _ => 0xD6
  | .decAbs _ => 0xCE
  | .decAbx _ => 0xDE
  | .dex => 0xCA
  | .dey => 0x88
  | .eorImm _ => 0x49
  | .eorZp _ => 0x45
  | .eorZpx _ => 0x55
  | .eorAbs _ => 0x4D
  | .eorAbx _ => 0x5D
  | .eorAby _ => 0x59
  | .eorIzx _ => 0x41
  | .eorIzy _ => 0x51
  | .incZp _ => 0xE6
  | .incZpx _ => 0xF6
  | .incAbs _ => 0xEE
  | .incAbx _ => 0xFE
  | .inx => 0xE8
  | .iny => 0xC8
  | .jmpAbs _ => 0x4C
  | .jmpInd _ => 0x6C
  | .jsr _ => 0x20
  | .ldaImm _ => 0xA9
  | .ldaZp _ => 0xA5
  | .ldaZpx _ => 0xB5
  | .ldaAbs _ => 0xAD
  | .ldaAbx _ => 0xBD
  | .ldaAby _ => 0xB9
  | .ldaIzx _ => 0xA1
  | .ldaIzy _ => 0xB1
  | .ldxImm _ => 0xA2
  | .ldxZp _ => 0xA6
  | .ldxZpy _ => 0xB6
  | .ldxAbs _ => 0xAE
  | .ldxAby _ => 0xBE
  | .ldyImm _ => 0xA0
  | .ldyZp _ => 0xA4
  | .ldyZpx _ => 0xB4
  | .ldyAbs _ => 0xAC
  | .ldyAbx _ => 0xBC
  | .lsrAcc => 0x4A
  | .lsrZp _ => 0x46
  | .lsrZpx _ => 0x56
  | .lsrAbs _ => 0x4E
  | .lsrAbx _ => 0x5E
  | .nop => 0xEA
  | .oraImm _ => 0x09
  | .oraZp _ => 0x05
  | .oraZpx _ => 0x15
  | .oraAbs _ => 0x0D
  | .oraAbx _ => 0x1D
  | .oraAby _ => 0x19
  | .oraIzx _ => 0x01
  | .oraIzy _ => 0x11
  | .pha => 0x48
  | .php => 0x08
  | .pla => 0x68
  | .plp => 0x28
  | .rolAcc => 0x2A
  | .rolZp _ => 0x26
  | .rolZpx _ => 0x36
  | .rolAbs _ => 0x2E
  | .rolAbx _ => 0x3E
  | .rorAcc => 0x6A
  | .rorZp _ => 0x66
  | .rorZpx _ => 0x76
  | .rorAbs _ => 0x6E
  | .rorAbx _ => 0x7E
  | .rti => 0x40
  | .rts => 0x60
  | .sbcImm _ => 0xE9
  | .sbcZp _ => 0xE5
  | .sbcZpx _ => 0xF5
  | .sbcAbs _ => 0xED
  | .sbcAbx _ => 0xFD
  | .sbcAby _ => 0xF9
  | .sbcIzx _ => 0xE1
  | .sbcIzy _ => 0xF1
  | .sec => 0x38
  | .sed => 0xF8
  | .sei => 0x78
  | .staZp _ => 0x85
  | .staZpx _ => 0x95
  | .staAbs _ => 0x8D
  | .staAbx _ => 0x9D
  | .staAby _ => 0x99
  | .staIzx _ => 0x81
  | .staIzy _ => 0x91
  | .stxZp _ => 0x86
  | .stxZpy _ => 0x96
  | .stxAbs _ => 0x8E
  | .styZp _ => 0x84
  | .styZpx _ => 0x94
  | .styAbs _ => 0x8C
  | .tax => 0xAA
  | .tay => 0xA8
  | .tsx => 0xBA
  | .txa => 0x8A
  | .txs => 0x9A
  | .tya => 0x98

/-- The operand bytes after the opcode, the low byte of a 16-bit operand first (R49, R40). -/
def Instr.operandBytes : Instr → List Byte
  | .brk | .php | .aslAcc | .clc | .plp | .rolAcc | .sec | .rti | .pha | .lsrAcc | .cli | .rts | .pla
  | .rorAcc | .sei | .dey | .txa | .tya | .txs | .tay | .tax | .clv | .tsx | .iny | .dex | .cld | .inx | .nop
  | .sed => []
  | .oraIzx b | .oraZp b | .aslZp b | .oraImm b | .bpl b | .oraIzy b | .oraZpx b | .aslZpx b | .andIzx b
  | .bitZp b | .andZp b | .rolZp b | .andImm b | .bmi b | .andIzy b | .andZpx b | .rolZpx b | .eorIzx b
  | .eorZp b | .lsrZp b | .eorImm b | .bvc b | .eorIzy b | .eorZpx b | .lsrZpx b | .adcIzx b | .adcZp b
  | .rorZp b | .adcImm b | .bvs b | .adcIzy b | .adcZpx b | .rorZpx b | .staIzx b | .styZp b | .staZp b
  | .stxZp b | .bcc b | .staIzy b | .styZpx b | .staZpx b | .stxZpy b | .ldyImm b | .ldaIzx b | .ldxImm b
  | .ldyZp b | .ldaZp b | .ldxZp b | .ldaImm b | .bcs b | .ldaIzy b | .ldyZpx b | .ldaZpx b | .ldxZpy b
  | .cpyImm b | .cmpIzx b | .cpyZp b | .cmpZp b | .decZp b | .cmpImm b | .bne b | .cmpIzy b | .cmpZpx b
  | .decZpx b | .cpxImm b | .sbcIzx b | .cpxZp b | .sbcZp b | .incZp b | .sbcImm b | .beq b | .sbcIzy b
  | .sbcZpx b | .incZpx b => [b]
  | .oraAbs w | .aslAbs w | .oraAby w | .oraAbx w | .aslAbx w | .jsr w | .bitAbs w | .andAbs w | .rolAbs w
  | .andAby w | .andAbx w | .rolAbx w | .jmpAbs w | .eorAbs w | .lsrAbs w | .eorAby w | .eorAbx w | .lsrAbx w
  | .jmpInd w | .adcAbs w | .rorAbs w | .adcAby w | .adcAbx w | .rorAbx w | .styAbs w | .staAbs w | .stxAbs w
  | .staAby w | .staAbx w | .ldyAbs w | .ldaAbs w | .ldxAbs w | .ldaAby w | .ldyAbx w | .ldaAbx w | .ldxAby w
  | .cpyAbs w | .cmpAbs w | .decAbs w | .cmpAby w | .cmpAbx w | .decAbx w | .cpxAbs w | .sbcAbs w | .incAbs w
  | .sbcAby w | .sbcAbx w | .incAbx w => [loByte w, hiByte w]

/-- The bytes of an instruction in memory order (R49). -/
def encode (i : Instr) : List Byte := i.opcode :: i.operandBytes

/-- Byte `k` of a word whose lowest `nbits` bits are given and whose other bits are 0: the table numbers a
byte machine's bits from the first byte's least significant bit. -/
def tableByte (nbits w k : Nat) : Byte := BitVec.ofNat 8 ((w % 2 ^ nbits) >>> (8 * k))

/-- The bytes of a table word, up to the longest instruction (three bytes, R49). -/
def tableBytes (nbits w : Nat) : List Byte := [tableByte nbits w 0, tableByte nbits w 1, tableByte nbits w 2]

/-- The instruction the decoder reads from a word of the opcode table, none where it refuses. -/
def decodeTableWord (nbits w : Nat) : Option Instr :=
  match decode (tableBytes nbits w) with
  | .ok (i, _) => some i
  | .error _ => none

end Sys2Proof
end

