-- ==== Sys2Proof/Machine/Memory.lean ====
section
/-! DEFINITION. Sparse arrays in one canonical form, and the two kinds the machine has: RAM bytes by address
(10_state.md R23) and frame-buffer pixels by position (R27). -/

namespace Sys2Proof.Machine

/-- What a sparse array `l` holds at `k`: the listed entry, else the default `d`. -/
def sparseGet {α : Type} (d : α) (l : List (Nat × α)) (k : Nat) : α :=
  match l with
  | [] => d
  | (j, v) :: rest => if j = k then v else sparseGet d rest k

/-- Write `v` at `k`, keeping the keys rising and listing no default: writing the default removes the entry. -/
def sparsePut {α : Type} [DecidableEq α] (d : α) (l : List (Nat × α)) (k : Nat) (v : α) : List (Nat × α) :=
  match l with
  | [] => if v = d then [] else [(k, v)]
  | (j, w) :: rest =>
    if k < j then (if v = d then (j, w) :: rest else (k, v) :: (j, w) :: rest)
    else if k = j then (if v = d then rest else (k, v) :: rest)
    else (j, w) :: sparsePut d rest k v

/-- The canonical form from key `lo` up: keys strictly rising, all below `bound`, no entry equal to the default. -/
def sparseWf {α : Type} [DecidableEq α] (d : α) (bound lo : Nat) (l : List (Nat × α)) : Bool :=
  match l with
  | [] => true
  | (k, v) :: rest =>
    decide (lo ≤ k) && decide (k < bound) && decide (v ≠ d) && sparseWf d bound (k + 1) rest

/-- RAM as (address, byte) pairs (R23). -/
abbrev Memory := List Host.Cell

/-- What a RAM cell that nothing has written holds: the default of `RESET_RAM` (R29, D16; DESIGN CHOICE, log 2). -/
def unwrittenByte : Byte := 0

/-- The canonical form of RAM: rising addresses below 65536, none holding the unwritten byte. -/
def Memory.wf (m : Memory) : Bool := sparseWf unwrittenByte 65536 0 m

/-- `RAM[a]` (R10). -/
def Memory.read (m : Memory) (a : Addr) : Byte := sparseGet unwrittenByte m a.toNat

/-- `RAM[a] <- v` (R10). -/
def Memory.write (m : Memory) (a : Addr) (v : Byte) : Memory := sparsePut unwrittenByte m a.toNat v

/-- The RAM that holds the listed bytes, a later entry of one address winning, and the unwritten byte elsewhere. -/
def Memory.ofList (cells : List (Addr × Byte)) : Memory :=
  cells.foldl (fun m c => m.write c.1 c.2) []

/-- One RGBA8888 pixel, its four bytes in memory order (R27, D26). -/
structure Rgba where
  r : Byte
  g : Byte
  b : Byte
  alpha : Byte
  deriving DecidableEq, Repr

/-- A 400×280 frame buffer as (pixel position, pixel) pairs; pixel (fx, fy) is at position fy*400 + fx (R27). -/
abbrev FrameBuffer := List (Nat × Rgba)

/-- A pixel nothing has painted: four bytes $00, the default of `INIT_FRONT` and `INIT_BACK` (D17; log 3). -/
def unpaintedPixel : Rgba := ⟨0, 0, 0, 0⟩

/-- The canonical form of a frame buffer: rising positions below 400*280. -/
def FrameBuffer.wf (f : FrameBuffer) : Bool := sparseWf unpaintedPixel 112000 0 f

/-- The pixel at (fx, fy). -/
def FrameBuffer.pixel (f : FrameBuffer) (fx fy : Nat) : Rgba := sparseGet unpaintedPixel f (fy * 400 + fx)

/-- Paint the pixel at (fx, fy). -/
def FrameBuffer.paint (f : FrameBuffer) (fx fy : Nat) (p : Rgba) : FrameBuffer :=
  sparsePut unpaintedPixel f (fy * 400 + fx) p

/-- Byte `k` of the row-major RGBA8888 image: pixel (fx, fy) occupies bytes 4*(fy*400 + fx) + 0..3 in the order
R, G, B, A (R27). -/
def FrameBuffer.byte (f : FrameBuffer) (k : Nat) : Byte :=
  let p := sparseGet unpaintedPixel f (k / 4)
  match k % 4 with
  | 0 => p.r
  | 1 => p.g
  | 2 => p.b
  | _ => p.alpha

/-- The frame buffer that holds the listed pixels, a later entry winning, and the unpainted pixel elsewhere. -/
def FrameBuffer.ofList (ps : List (Fin 112000 × Rgba)) : FrameBuffer :=
  ps.foldl (fun f p => sparsePut unpaintedPixel f p.1.val p.2) []

end Sys2Proof.Machine
end

