-- ==== Sys2Proof/Machine/State.lean ====
section
/-! DEFINITION. The machine's state as plain data, everything 10_state.md gives it, the reasons a step or a host
call can stop, and the state after reset. -/

namespace Sys2Proof.Machine

/-- The fault taxonomy (60_exceptions.md R125): one kind. It is the entry `step` appends to the fault log (R22).
No outcome of `step` or `exec` carries it: the spec says what the state is after the fault, so the step answers
that state (log 8). -/
inductive Fault where
  /-- Recorded by `step` (through takeUnimplementedOpcode) when the byte fetched at `addr` is not in the opcode
  map. Unsafe in one way only: the run goes on where a host may stop retrying (log 8). -/
  | unimplementedOpcode (op : Byte) (addr : Addr)
  deriving DecidableEq, Repr

/-- Why something has no meaning in the model. -/
inductive Refusal where
  /-- Raised by `exec` for an instruction without a meaning; no arm is left that raises it. Safe. -/
  | notModelled (mnemonic : String)
  /-- Raised by the host call `loadBytes` when a + len > 65536: "the call is refused" (R152, D6). Safe. -/
  | loadOutOfRange (a len : Nat)
  /-- Raised by the host call `setProgramCounter` when a > $FFFF: "the call is refused" (R153, D6). Safe. -/
  | programCounterOutOfRange (a : Nat)
  deriving DecidableEq, Repr

/-- The seven stored flags (R17). -/
structure Flags where
  /-- negative -/
  n : Bool
  /-- overflow -/
  v : Bool
  /-- break, a stored flag on this hardware (90_conflicts.md C8) -/
  b : Bool
  /-- decimal -/
  d : Bool
  /-- interrupt disable, which gates nothing (R130) -/
  i : Bool
  /-- zero -/
  z : Bool
  /-- carry -/
  c : Bool
  deriving DecidableEq, Repr

/-- The whole System: CPU, RAM, VideoChip and fault log (10_state.md R14 to R27). -/
structure State where
  /-- the program counter (R16) -/
  pc : Addr
  /-- the stack pointer (R15) -/
  sp : Byte
  /-- the accumulator (R14) -/
  a : Byte
  /-- index register X (R14) -/
  x : Byte
  /-- index register Y (R14) -/
  y : Byte
  /-- the flags N V B D I Z C (R17) -/
  flags : Flags
  /-- CYC, the consumed cycles (R21) -/
  cyc : Nat
  /-- the fault log, oldest entry first (R22) -/
  faultLog : List Fault
  /-- RAM, 65536 cells, the shadow cells under the ROM windows among them (R23) -/
  ram : Memory
  /-- VIC.reg[0..47] (R25) -/
  vic : Vector Byte 48
  /-- the raster column RX (R26) -/
  rx : Fin 504
  /-- the raster line RY (R26) -/
  ry : Fin 312
  /-- the frame buffer being painted (R27) -/
  front : FrameBuffer
  /-- the last complete frame (R27) -/
  back : FrameBuffer
  /-- how many reads of $D030 have been answered: the model's own field, which numbers the draws (R35, log 5) -/
  draws : Nat
  /-- the parameter `CYCLES`, an argument of the model: fixed for a run and written by no operation (R6, R28, D3;
  log 20). It stands here because `step` has no other argument. -/
  cycleTable : Config.CycleTable
  deriving DecidableEq, Repr

/-- How a step and a meaning answer. -/
abbrev Result := Host.Outcome State Fault Refusal

/-- `RESET_REGS.flags` at its default (D15; DESIGN CHOICE, log 1). -/
def resetFlags : Flags := ⟨false, false, false, false, false, false, false⟩

/-- The state after `initialize` with every OPEN parameter at its default (R29; logs 1 to 5, 20). -/
def State.reset : State where
  pc := 0x0000
  sp := 0xFF
  a := 0x00
  x := 0x00
  y := 0x00
  flags := resetFlags
  cyc := 0
  faultLog := []
  ram := []
  vic := Vector.replicate 48 0
  rx := 0
  ry := 0
  front := []
  back := []
  draws := 0
  cycleTable := defaultCycles

end Sys2Proof.Machine
end

