-- ==== Sys2Proof/Machine/Flags.lean ====
section
/-! DEFINITION. The status byte (10_state.md R19, R20) and every computation that yields a flag
(42_arith_logic.md, 43_shift_rotate.md). -/

namespace Sys2Proof.Machine

/-- `pack(P)`: N V 1 1 D I Z C from bit 7 down (R19). -/
def Flags.pack (f : Flags) : Byte :=
  BitVec.ofBool f.n ++ BitVec.ofBool f.v ++ 1#1 ++ 1#1 ++
    BitVec.ofBool f.d ++ BitVec.ofBool f.i ++ BitVec.ofBool f.z ++ BitVec.ofBool f.c

/-- `unpack(p)`: bits 7 6 3 2 1 0 to N V D I Z C; bits 5 and 4 are ignored and B keeps its value (R20). -/
def Flags.unpack (f : Flags) (p : Byte) : Flags :=
  { f with n := p.getLsbD 7, v := p.getLsbD 6, d := p.getLsbD 3, i := p.getLsbD 2, z := p.getLsbD 1, c := p.getLsbD 0 }

/-- `setNZ(v)`: N is bit 7 of v, Z says v is zero (R12). -/
def Flags.setNZ (f : Flags) (v : Byte) : Flags := { f with n := v.getLsbD 7, z := decide (v = 0) }

/-- What ADC, SBC, a compare or a shift computes: the result byte and the carry and overflow it leaves. -/
structure Alu where
  r : Byte
  c : Bool
  v : Bool
  deriving DecidableEq, Repr

/-- The binary ADC overflow `((A ^ rb) & (M ^ rb) & $80) != 0` (R80). -/
def overflowAdd (a m rb : Byte) : Bool := decide (((a ^^^ rb) &&& (m ^^^ rb) &&& 0x80) ≠ 0)

/-- The binary SBC overflow `((A ^ M) & (A ^ rb) & $80) != 0` (R81). -/
def overflowSub (a m rb : Byte) : Bool := decide (((a ^^^ m) &&& (a ^^^ rb) &&& 0x80) ≠ 0)

/-- ADC with D = 0 (R80). -/
def adcBinary (a m : Byte) (c : Bool) : Alu :=
  let s := a.toNat + m.toNat + c.toNat
  let rb := BitVec.ofNat 8 s
  { r := rb, c := decide (s > 255), v := overflowAdd a m rb }

/-- `((hi mod 16) << 4) | (lo mod 16)` for two corrected nibbles (R80, R81). -/
def packNibbles (hi lo : Nat) : Byte := BitVec.ofNat 8 ((hi % 16) * 16 + lo % 16)

/-- ADC with D = 1: nibble by nibble, +10 correction, carry from the high nibble (R80, D11). V is the free
function `DECIMAL_V_ADC` of the operands (D10, log 7). -/
def adcDecimal (a m : Byte) (c : Bool) : Alu :=
  let lo := a.toNat % 16 + m.toNat % 16 + c.toNat
  let hc := if lo > 9 then 1 else 0
  let lo' := if lo > 9 then lo - 10 else lo
  let hi := a.toNat / 16 + m.toNat / 16 + hc
  let hi' := if hi > 9 then hi - 10 else hi
  { r := packNibbles hi' lo', c := decide (hi > 9), v := Config.decimalVAdc a m c }

/-- SBC with D = 0: A plus the complement of M plus C (R81). -/
def sbcBinary (a m : Byte) (c : Bool) : Alu :=
  let s := a.toNat + (m ^^^ 0xFF).toNat + c.toNat
  let rb := BitVec.ofNat 8 s
  { r := rb, c := decide (s > 255), v := overflowSub a m rb }

/-- SBC with D = 1, exact integers with borrow correction; `mod 16` is the non-negative remainder (R81, R9). -/
def sbcDecimal (a m : Byte) (c : Bool) : Alu :=
  let lo : Int := (a.toNat % 16 : Nat) - (m.toNat % 16 : Nat) - (1 - (c.toNat : Int))
  let hb : Int := if lo < 0 then 1 else 0
  let lo' := if lo < 0 then lo + 10 else lo
  let hi : Int := (a.toNat / 16 : Nat) - (m.toNat / 16 : Nat) - hb
  let hi' := if hi < 0 then hi + 10 else hi
  { r := packNibbles (hi' % 16).toNat (lo' % 16).toNat, c := decide (0 ≤ hi), v := Config.decimalVSbc a m c }

/-- ADC: the D flag selects the arithmetic (R80). -/
def adc (f : Flags) (a m : Byte) : Alu := if f.d then adcDecimal a m f.c else adcBinary a m f.c

/-- SBC: the D flag selects the arithmetic (R81). -/
def sbc (f : Flags) (a m : Byte) : Alu := if f.d then sbcDecimal a m f.c else sbcBinary a m f.c

/-- The flags after ADC or SBC: C and V of the result, N and Z of its byte (R80, R81). -/
def Flags.setArith (f : Flags) (u : Alu) : Flags := { f with c := u.c, v := u.v }.setNZ u.r

/-- `compare(R, M)`: C says R >= M unsigned, Z says R == M, N is bit 7 of (R - M) mod 256 (R86). -/
def Flags.compare (f : Flags) (r m : Byte) : Flags :=
  { f with c := decide (m.toNat ≤ r.toNat), z := decide (r = m), n := (r - m).getLsbD 7 }

/-- BIT: N and V are bits 7 and 6 of M, Z says A & M is zero (R85). -/
def Flags.bitTest (f : Flags) (a m : Byte) : Flags :=
  { f with n := m.getLsbD 7, v := m.getLsbD 6, z := decide (a &&& m = 0) }

/-- A shift's result byte and carry out. -/
structure Shifted where
  r : Byte
  c : Bool
  deriving DecidableEq, Repr

/-- ASL: C is bit 7, the result is shifted left with 0 in (R96). -/
def asl (m : Byte) (_c : Bool) : Shifted := { r := m <<< 1, c := m.getLsbD 7 }

/-- LSR: C is bit 0, the result is shifted right with 0 in (R97). -/
def lsr (m : Byte) (_c : Bool) : Shifted := { r := m >>> 1, c := m.getLsbD 0 }

/-- ROL: the old C enters bit 0, C is bit 7 (R98). -/
def rol (m : Byte) (c : Bool) : Shifted := { r := (m <<< 1) ||| (BitVec.ofBool c).setWidth 8, c := m.getLsbD 7 }

/-- ROR: the old C enters bit 7, C is bit 0 (R99). -/
def ror (m : Byte) (c : Bool) : Shifted := { r := (m >>> 1) ||| ((BitVec.ofBool c).setWidth 8 <<< 7), c := m.getLsbD 0 }

/-- The flags after a shift: C shifted out, N and Z of the result (R96 to R99). -/
def Flags.setShift (f : Flags) (u : Shifted) : Flags := { f with c := u.c }.setNZ u.r

end Sys2Proof.Machine
end

