-- ==== Sys2Proof/Machine/Ops.lean ====
section
/-! DEFINITION. The named operations over registers and memory: the Bus (20_memory.md), the stack (41_stack.md),
the trap and the return from it (60_exceptions.md R127, R128), and the unimplemented-opcode fault (R125). -/

namespace Sys2Proof.Machine

/-- `PC <- v`. -/
def State.setPc (s : State) (v : Addr) : State := { s with pc := v }
/-- `SP <- v`. -/
def State.setSp (s : State) (v : Byte) : State := { s with sp := v }
/-- `A <- v`. -/
def State.setA (s : State) (v : Byte) : State := { s with a := v }
/-- `X <- v`. -/
def State.setX (s : State) (v : Byte) : State := { s with x := v }
/-- `Y <- v`. -/
def State.setY (s : State) (v : Byte) : State := { s with y := v }
/-- Replace the seven flags. -/
def State.setFlags (s : State) (f : Flags) : State := { s with flags := f }
/-- `CYC <- CYC + k` (R10). -/
def State.addCycles (s : State) (k : Nat) : State := { s with cyc := s.cyc + k }
/-- `CYCLES[op]`, for the table of this run (R6, R59; log 20). -/
def State.baseCycles (s : State) (op : Byte) : Nat := sparseGet 0 s.cycleTable op.toNat
/-- Replace RAM. -/
def State.setRam (s : State) (m : Memory) : State := { s with ram := m }
/-- Replace the VIC register file. -/
def State.setVic (s : State) (v : Vector Byte 48) : State := { s with vic := v }
/-- Append an entry to the fault log (R22). -/
def State.logFault (s : State) (e : Fault) : State := { s with faultLog := s.faultLog ++ [e] }
/-- Count one more draw. -/
def State.countDraw (s : State) : State := { s with draws := s.draws + 1 }
/-- `setNZ(v)` on the state's flags (R12). -/
def State.setNZ (s : State) (v : Byte) : State := s.setFlags (s.flags.setNZ v)

/-- What serves an address of the CPU view (R31). -/
inductive Region where
  | ram
  | basicRom
  | vicWindow
  | kernalRom
  deriving DecidableEq, Repr

/-- The address decoder, in the priority order of R32. -/
def region (a : Addr) : Region :=
  if 0xD000 ≤ a.toNat ∧ a.toNat ≤ 0xD030 then .vicWindow
  else if 0xA000 ≤ a.toNat ∧ a.toNat ≤ 0xBFFF then .basicRom
  else if 0xE000 ≤ a.toNat then .kernalRom
  else .ram

/-- The offset of an address in the VIC window, `a - $D000` (R35, D8). -/
def vicOffset (a : Addr) : Nat := a.toNat - 0xD000

/-- `VIC_read(off)`: the register's byte, or the current draw at offset 48 (R35). -/
def vicRead (s : State) (off : Nat) : Byte :=
  if h : off < 48 then s.vic[off] else Config.vicOorRead s.draws

/-- `VIC_write(off, v)`: the register takes v; at offset 48 nothing changes (R35). -/
def vicWrite (s : State) (off : Nat) (v : Byte) : State :=
  if h : off < 48 then s.setVic (s.vic.set off v h) else s

/-- `RAM[a]`, whatever overlays it. -/
def ramAt (s : State) (a : Addr) : Byte := s.ram.read a

/-- `MemRead(a)`: the byte a read answers now (R32). -/
def busRead (s : State) (a : Addr) : Byte :=
  match region a with
  | .vicWindow => vicRead s (vicOffset a)
  | .basicRom => Config.basicRom (BitVec.ofNat 13 (a.toNat - 0xA000))
  | .kernalRom => Config.kernalRom (BitVec.ofNat 13 (a.toNat - 0xE000))
  | .ram => ramAt s a

/-- The state after `MemRead(a)`: unchanged, but a read of $D030 has used up a draw (R32, R35). -/
def afterRead (s : State) (a : Addr) : State := if a = 0xD030 then s.countDraw else s

/-- `MemWrite(a, v)`: a VIC register, or RAM, the RAM under the ROM windows included (R33, R34). -/
def busWrite (s : State) (a : Addr) (v : Byte) : State :=
  match region a with
  | .vicWindow => vicWrite s (vicOffset a) v
  | _ => s.setRam (s.ram.write a v)

/-- `Read16(a)`: the low byte at a, the high byte at a +16 1 (R11). -/
def read16 (s : State) (a : Addr) : Addr := hiLo (busRead s (a + 1)) (busRead s a)

/-- The byte the stack pointer designates: `$0100 | SP`, that is `0x01:SP` (R15). -/
def stackAddr (sp : Byte) : Addr := hiLo 0x01 sp

/-- `push(v)`: write at the stack position, then move SP down (R73). -/
def push (v : Byte) (s : State) : State := (busWrite s (stackAddr s.sp) v).setSp (s.sp - 1)

/-- The state after `pull()`: SP has moved up (R74). The stack page is RAM, so the read uses up no draw. -/
def afterPull (s : State) : State := s.setSp (s.sp + 1)

/-- The byte `pull()` answers: the one at SP +8 1 (R74). -/
def pulled (s : State) : Byte := busRead s (stackAddr (s.sp + 1))

/-- Push a 16-bit value, high byte first (R101, R103). -/
def pushAddr (v : Addr) (s : State) : State := push (loByte v) (push (hiByte v) s)

/-- The 16-bit value two pulls answer, low byte first (R102, R104). -/
def pulledAddr (s : State) : Addr := hiLo (pulled (afterPull s)) (pulled s)

/-- The state after two pulls. -/
def afterPullAddr (s : State) : State := afterPull (afterPull s)

/-- The trap vector's address (R103, D13). -/
def trapVector : Addr := 0xFFFE

/-- Trap entry: push the return address, high byte first, and the status byte; set B and I; load PC from the
vector $FFFE/$FFFF (R127, R103). The pushed status is packed before B and I are set. -/
def takeTrap (ret : Addr) (s : State) : State :=
  let s1 := push s.flags.pack (pushAddr ret s)
  let s2 := s1.setFlags { s1.flags with b := true, i := true }
  s2.setPc (read16 s2 trapVector)

/-- Trap return: pull the status byte (B kept, bits 4 and 5 ignored), then PC low and PC high; no increment
(R128, R104). -/
def returnFromTrap (s : State) : State :=
  let s1 := (afterPull s).setFlags (s.flags.unpack (pulled s))
  (afterPullAddr s1).setPc (pulledAddr s1)

/-- The UnimplementedOpcode fault: `s` is the state after the opcode fetch, so PC is opaddr +16 1; the entry is
appended to the log and nothing else changes (R125, D19). The host may go on, so the step answers this state
(log 8). -/
def takeUnimplementedOpcode (op : Byte) (opaddr : Addr) (s : State) : Result :=
  .next (s.logFault (.unimplementedOpcode op opaddr))

end Sys2Proof.Machine
end

