-- ==== Sys2Proof/Machine/Operands.lean ====
section
/-! DEFINITION. The addressing modes (30_encoding.md R52 to R54) and the operation classes over them. Every
function here sees the state after the operand fetch, whose PC is PCnext (R51). -/

namespace Sys2Proof.Machine

/-- `zext_16(v)` (R9). -/
def zext16 (v : Byte) : Addr := v.setWidth 16

/-- `page(a)` (R9). -/
def page (a : Addr) : Byte := hiByte a

/-- The eight addressing modes that name a byte of memory, each with its operand (R52). -/
inductive MemOperand where
  | zp (z : Byte)
  | zpx (z : Byte)
  | zpy (z : Byte)
  | abs (adr : Addr)
  | abx (adr : Addr)
  | aby (adr : Addr)
  | izx (z : Byte)
  | izy (z : Byte)
  deriving DecidableEq, Repr

/-- The 16-bit pointer at zero-page address z; its high byte wraps within the zero page (R52). The zero page is
RAM, so the reads use up no draw. -/
def zeroPagePointer (s : State) (z : Byte) : Addr := hiLo (busRead s (zext16 (z + 1))) (busRead s (zext16 z))

/-- The address before indexing by the 16-bit sum: `base` of abx, aby and izy, and ea itself for the other
modes (R52). -/
def MemOperand.base (o : MemOperand) (s : State) : Addr :=
  match o with
  | .zp z => zext16 z
  | .zpx z => zext16 (z + s.x)
  | .zpy z => zext16 (z + s.y)
  | .abs adr => adr
  | .abx adr => adr
  | .aby adr => adr
  | .izx z => zeroPagePointer s (z + s.x)
  | .izy z => zeroPagePointer s z

/-- The effective address `ea` (R52). -/
def MemOperand.ea (o : MemOperand) (s : State) : Addr :=
  match o with
  | .abx _ => o.base s + zext16 s.x
  | .aby _ => o.base s + zext16 s.y
  | .izy _ => o.base s + zext16 s.y
  | _ => o.base s

/-- `pc_cross`: the result's page differs from the base's; never so for a mode that does not index by the 16-bit
sum (R52, R59). -/
def MemOperand.crosses (o : MemOperand) (s : State) : Bool := decide (page (o.base s) ≠ page (o.ea s))

/-- The source of a read-class instruction (R54). -/
inductive Source where
  | imm (v : Byte)
  | mem (o : MemOperand)
  deriving DecidableEq, Repr

/-- The operand value `M`: b1 for imm, otherwise MemRead(ea) (R54). -/
def Source.value (o : Source) (s : State) : Byte :=
  match o with
  | .imm v => v
  | .mem m => busRead s (m.ea s)

/-- The state after the operand read. -/
def Source.consume (o : Source) (s : State) : State :=
  match o with
  | .imm _ => s
  | .mem m => afterRead s (m.ea s)

/-- `extra` of a read-class instruction: 1 on a page crossing of abx, aby or izy (R59). -/
def Source.extra (o : Source) (s : State) : Nat :=
  match o with
  | .imm _ => 0
  | .mem m => if m.crosses s then 1 else 0

/-- The operand of a shift: A in acc mode, or a byte of memory (43_shift_rotate.md, R54). -/
inductive Target where
  | acc
  | mem (o : MemOperand)
  deriving DecidableEq, Repr

/-- `opnd`: A in acc mode, MemRead(ea) otherwise. -/
def Target.value (o : Target) (s : State) : Byte :=
  match o with
  | .acc => s.a
  | .mem m => busRead s (m.ea s)

/-- `store(r)` after the operand read: A in acc mode, MemWrite(ea, r) otherwise; ea is computed once, before the
write (R54). -/
def Target.store (o : Target) (r : Byte) (s : State) : State :=
  match o with
  | .acc => s.setA r
  | .mem m => busWrite (afterRead s (m.ea s)) (m.ea s) r

/-- The second pointer address of JMP (ind): the low byte wraps within the page (R52, R53). -/
def wrapInPage (ptr : Addr) : Addr := hiLo (hiByte ptr) (loByte ptr + 1)

/-- The target of JMP (ind): low byte at ptr, high byte at the wrapped next address (R52, R53). -/
def indirectTarget (s : State) (ptr : Addr) : Addr :=
  hiLo (busRead (afterRead s ptr) (wrapInPage ptr)) (busRead s ptr)

/-- The state after JMP (ind) has read its pointer, low byte first (R52, log 10). -/
def afterIndirect (s : State) (ptr : Addr) : State := afterRead (afterRead s ptr) (wrapInPage ptr)

/-- A branch's target: PCnext plus the sign-extended offset, modulo 65536 (R52, R105). -/
def branchTarget (pcNext : Addr) (off : Byte) : Addr := pcNext + off.signExtend 16

end Sys2Proof.Machine
end

