-- ==== Sys2Proof/Machine/Arith.lean ====
section
/-! DEFINITION. Arithmetic, logic, compare, increment and decrement (42_arith_logic.md R80 to R95). -/

namespace Sys2Proof.Machine

/-- ADC: A, C, V, N and Z from A + M + C, in the arithmetic D selects (R80). -/
def addWithCarry (o : Source) (base : Nat) (s : State) : State :=
  let u := adc s.flags s.a (o.value s)
  (((o.consume s).setA u.r).setFlags (s.flags.setArith u)).addCycles (base + o.extra s)

/-- SBC: A, C, V, N and Z from A - M - (1 - C), in the arithmetic D selects (R81). -/
def subWithBorrow (o : Source) (base : Nat) (s : State) : State :=
  let u := sbc s.flags s.a (o.value s)
  (((o.consume s).setA u.r).setFlags (s.flags.setArith u)).addCycles (base + o.extra s)

/-- AND, ORA, EOR: A <- r and setNZ(A), where r combines A and M (R82, R83, R84). -/
def logic (f : Byte → Byte → Byte) (o : Source) (base : Nat) (s : State) : State :=
  let r := f s.a (o.value s)
  (((o.consume s).setA r).setNZ r).addCycles (base + o.extra s)

/-- BIT: the three flags only (R85). -/
def testBits (o : Source) (base : Nat) (s : State) : State :=
  ((o.consume s).setFlags (s.flags.bitTest s.a (o.value s))).addCycles (base + o.extra s)

/-- CMP, CPX, CPY: compare(R, M), the flags only (R86 to R89). -/
def compareWith (r : Byte) (o : Source) (base : Nat) (s : State) : State :=
  ((o.consume s).setFlags (s.flags.compare r (o.value s))).addCycles (base + o.extra s)

/-- INC, DEC on memory: MemRead(ea), MemWrite(ea, M + delta), setNZ; one read and one write (R90, R91, R42). -/
def addToMemory (delta : Byte) (o : MemOperand) (base : Nat) (s : State) : State :=
  let r := busRead s (o.ea s) + delta
  ((busWrite (afterRead s (o.ea s)) (o.ea s) r).setNZ r).addCycles base

/-- ADC imm, opcode $69 (R80). -/
def execAdcImm (v : Byte) (s : State) : Result :=
  .next (addWithCarry (.imm v) (s.baseCycles 0x69) s)

/-- ADC zp, opcode $65 (R80). -/
def execAdcZp (z : Byte) (s : State) : Result :=
  .next (addWithCarry (.mem (.zp z)) (s.baseCycles 0x65) s)

/-- ADC zpx, opcode $75 (R80). -/
def execAdcZpx (z : Byte) (s : State) : Result :=
  .next (addWithCarry (.mem (.zpx z)) (s.baseCycles 0x75) s)

/-- ADC abs, opcode $6D (R80). -/
def execAdcAbs (adr : Addr) (s : State) : Result :=
  .next (addWithCarry (.mem (.abs adr)) (s.baseCycles 0x6D) s)

/-- ADC abx, opcode $7D (R80). -/
def execAdcAbx (adr : Addr) (s : State) : Result :=
  .next (addWithCarry (.mem (.abx adr)) (s.baseCycles 0x7D) s)

/-- ADC aby, opcode $79 (R80). -/
def execAdcAby (adr : Addr) (s : State) : Result :=
  .next (addWithCarry (.mem (.aby adr)) (s.baseCycles 0x79) s)

/-- ADC izx, opcode $61 (R80). -/
def execAdcIzx (z : Byte) (s : State) : Result :=
  .next (addWithCarry (.mem (.izx z)) (s.baseCycles 0x61) s)

/-- ADC izy, opcode $71 (R80). -/
def execAdcIzy (z : Byte) (s : State) : Result :=
  .next (addWithCarry (.mem (.izy z)) (s.baseCycles 0x71) s)

/-- SBC imm, opcode $E9 (R81). -/
def execSbcImm (v : Byte) (s : State) : Result :=
  .next (subWithBorrow (.imm v) (s.baseCycles 0xE9) s)

/-- SBC zp, opcode $E5 (R81). -/
def execSbcZp (z : Byte) (s : State) : Result :=
  .next (subWithBorrow (.mem (.zp z)) (s.baseCycles 0xE5) s)

/-- SBC zpx, opcode $F5 (R81). -/
def execSbcZpx (z : Byte) (s : State) : Result :=
  .next (subWithBorrow (.mem (.zpx z)) (s.baseCycles 0xF5) s)

/-- SBC abs, opcode $ED (R81). -/
def execSbcAbs (adr : Addr) (s : State) : Result :=
  .next (subWithBorrow (.mem (.abs adr)) (s.baseCycles 0xED) s)

/-- SBC abx, opcode $FD (R81). -/
def execSbcAbx (adr : Addr) (s : State) : Result :=
  .next (subWithBorrow (.mem (.abx adr)) (s.baseCycles 0xFD) s)

/-- SBC aby, opcode $F9 (R81). -/
def execSbcAby (adr : Addr) (s : State) : Result :=
  .next (subWithBorrow (.mem (.aby adr)) (s.baseCycles 0xF9) s)

/-- SBC izx, opcode $E1 (R81). -/
def execSbcIzx (z : Byte) (s : State) : Result :=
  .next (subWithBorrow (.mem (.izx z)) (s.baseCycles 0xE1) s)

/-- SBC izy, opcode $F1 (R81). -/
def execSbcIzy (z : Byte) (s : State) : Result :=
  .next (subWithBorrow (.mem (.izy z)) (s.baseCycles 0xF1) s)

/-- AND imm, opcode $29 (R82). -/
def execAndImm (v : Byte) (s : State) : Result :=
  .next (logic (fun a m => a &&& m) (.imm v) (s.baseCycles 0x29) s)

/-- AND zp, opcode $25 (R82). -/
def execAndZp (z : Byte) (s : State) : Result :=
  .next (logic (fun a m => a &&& m) (.mem (.zp z)) (s.baseCycles 0x25) s)

/-- AND zpx, opcode $35 (R82). -/
def execAndZpx (z : Byte) (s : State) : Result :=
  .next (logic (fun a m => a &&& m) (.mem (.zpx z)) (s.baseCycles 0x35) s)

/-- AND abs, opcode $2D (R82). -/
def execAndAbs (adr : Addr) (s : State) : Result :=
  .next (logic (fun a m => a &&& m) (.mem (.abs adr)) (s.baseCycles 0x2D) s)

/-- AND abx, opcode $3D (R82). -/
def execAndAbx (adr : Addr) (s : State) : Result :=
  .next (logic (fun a m => a &&& m) (.mem (.abx adr)) (s.baseCycles 0x3D) s)

/-- AND aby, opcode $39 (R82). -/
def execAndAby (adr : Addr) (s : State) : Result :=
  .next (logic (fun a m => a &&& m) (.mem (.aby adr)) (s.baseCycles 0x39) s)

/-- AND izx, opcode $21 (R82). -/
def execAndIzx (z : Byte) (s : State) : Result :=
  .next (logic (fun a m => a &&& m) (.mem (.izx z)) (s.baseCycles 0x21) s)

/-- AND izy, opcode $31 (R82). -/
def execAndIzy (z : Byte) (s : State) : Result :=
  .next (logic (fun a m => a &&& m) (.mem (.izy z)) (s.baseCycles 0x31) s)

/-- ORA imm, opcode $09 (R83). -/
def execOraImm (v : Byte) (s : State) : Result :=
  .next (logic (fun a m => a ||| m) (.imm v) (s.baseCycles 0x09) s)

/-- ORA zp, opcode $05 (R83). -/
def execOraZp (z : Byte) (s : State) : Result :=
  .next (logic (fun a m => a ||| m) (.mem (.zp z)) (s.baseCycles 0x05) s)

/-- ORA zpx, opcode $15 (R83). -/
def execOraZpx (z : Byte) (s : State) : Result :=
  .next (logic (fun a m => a ||| m) (.mem (.zpx z)) (s.baseCycles 0x15) s)

/-- ORA abs, opcode $0D (R83). -/
def execOraAbs (adr : Addr) (s : State) : Result :=
  .next (logic (fun a m => a ||| m) (.mem (.abs adr)) (s.baseCycles 0x0D) s)

/-- ORA abx, opcode $1D (R83). -/
def execOraAbx (adr : Addr) (s : State) : Result :=
  .next (logic (fun a m => a ||| m) (.mem (.abx adr)) (s.baseCycles 0x1D) s)

/-- ORA aby, opcode $19 (R83). -/
def execOraAby (adr : Addr) (s : State) : Result :=
  .next (logic (fun a m => a ||| m) (.mem (.aby adr)) (s.baseCycles 0x19) s)

/-- ORA izx, opcode $01 (R83). -/
def execOraIzx (z : Byte) (s : State) : Result :=
  .next (logic (fun a m => a ||| m) (.mem (.izx z)) (s.baseCycles 0x01) s)

/-- ORA izy, opcode $11 (R83). -/
def execOraIzy (z : Byte) (s : State) : Result :=
  .next (logic (fun a m => a ||| m) (.mem (.izy z)) (s.baseCycles 0x11) s)

/-- EOR imm, opcode $49 (R84). -/
def execEorImm (v : Byte) (s : State) : Result :=
  .next (logic (fun a m => a ^^^ m) (.imm v) (s.baseCycles 0x49) s)

/-- EOR zp, opcode $45 (R84). -/
def execEorZp (z : Byte) (s : State) : Result :=
  .next (logic (fun a m => a ^^^ m) (.mem (.zp z)) (s.baseCycles 0x45) s)

/-- EOR zpx, opcode $55 (R84). -/
def execEorZpx (z : Byte) (s : State) : Result :=
  .next (logic (fun a m => a ^^^ m) (.mem (.zpx z)) (s.baseCycles 0x55) s)

/-- EOR abs, opcode $4D (R84). -/
def execEorAbs (adr : Addr) (s : State) : Result :=
  .next (logic (fun a m => a ^^^ m) (.mem (.abs adr)) (s.baseCycles 0x4D) s)

/-- EOR abx, opcode $5D (R84). -/
def execEorAbx (adr : Addr) (s : State) : Result :=
  .next (logic (fun a m => a ^^^ m) (.mem (.abx adr)) (s.baseCycles 0x5D) s)

/-- EOR aby, opcode $59 (R84). -/
def execEorAby (adr : Addr) (s : State) : Result :=
  .next (logic (fun a m => a ^^^ m) (.mem (.aby adr)) (s.baseCycles 0x59) s)

/-- EOR izx, opcode $41 (R84). -/
def execEorIzx (z : Byte) (s : State) : Result :=
  .next (logic (fun a m => a ^^^ m) (.mem (.izx z)) (s.baseCycles 0x41) s)

/-- EOR izy, opcode $51 (R84). -/
def execEorIzy (z : Byte) (s : State) : Result :=
  .next (logic (fun a m => a ^^^ m) (.mem (.izy z)) (s.baseCycles 0x51) s)

/-- BIT zp, opcode $24 (R85). -/
def execBitZp (z : Byte) (s : State) : Result :=
  .next (testBits (.mem (.zp z)) (s.baseCycles 0x24) s)

/-- BIT abs, opcode $2C (R85). -/
def execBitAbs (adr : Addr) (s : State) : Result :=
  .next (testBits (.mem (.abs adr)) (s.baseCycles 0x2C) s)

/-- CMP imm, opcode $C9 (R87). -/
def execCmpImm (v : Byte) (s : State) : Result :=
  .next (compareWith s.a (.imm v) (s.baseCycles 0xC9) s)

/-- CMP zp, opcode $C5 (R87). -/
def execCmpZp (z : Byte) (s : State) : Result :=
  .next (compareWith s.a (.mem (.zp z)) (s.baseCycles 0xC5) s)

/-- CMP zpx, opcode $D5 (R87). -/
def execCmpZpx (z : Byte) (s : State) : Result :=
  .next (compareWith s.a (.mem (.zpx z)) (s.baseCycles 0xD5) s)

/-- CMP abs, opcode $CD (R87). -/
def execCmpAbs (adr : Addr) (s : State) : Result :=
  .next (compareWith s.a (.mem (.abs adr)) (s.baseCycles 0xCD) s)

/-- CMP abx, opcode $DD (R87). -/
def execCmpAbx (adr : Addr) (s : State) : Result :=
  .next (compareWith s.a (.mem (.abx adr)) (s.baseCycles 0xDD) s)

/-- CMP aby, opcode $D9 (R87). -/
def execCmpAby (adr : Addr) (s : State) : Result :=
  .next (compareWith s.a (.mem (.aby adr)) (s.baseCycles 0xD9) s)

/-- CMP izx, opcode $C1 (R87). -/
def execCmpIzx (z : Byte) (s : State) : Result :=
  .next (compareWith s.a (.mem (.izx z)) (s.baseCycles 0xC1) s)

/-- CMP izy, opcode $D1 (R87). -/
def execCmpIzy (z : Byte) (s : State) : Result :=
  .next (compareWith s.a (.mem (.izy z)) (s.baseCycles 0xD1) s)

/-- CPX imm, opcode $E0 (R88). -/
def execCpxImm (v : Byte) (s : State) : Result :=
  .next (compareWith s.x (.imm v) (s.baseCycles 0xE0) s)

/-- CPX zp, opcode $E4 (R88). -/
def execCpxZp (z : Byte) (s : State) : Result :=
  .next (compareWith s.x (.mem (.zp z)) (s.baseCycles 0xE4) s)

/-- CPX abs, opcode $EC (R88). -/
def execCpxAbs (adr : Addr) (s : State) : Result :=
  .next (compareWith s.x (.mem (.abs adr)) (s.baseCycles 0xEC) s)

/-- CPY imm, opcode $C0 (R89). -/
def execCpyImm (v : Byte) (s : State) : Result :=
  .next (compareWith s.y (.imm v) (s.baseCycles 0xC0) s)

/-- CPY zp, opcode $C4 (R89). -/
def execCpyZp (z : Byte) (s : State) : Result :=
  .next (compareWith s.y (.mem (.zp z)) (s.baseCycles 0xC4) s)

/-- CPY abs, opcode $CC (R89). -/
def execCpyAbs (adr : Addr) (s : State) : Result :=
  .next (compareWith s.y (.mem (.abs adr)) (s.baseCycles 0xCC) s)

/-- INC zp, opcode $E6 (R90). -/
def execIncZp (z : Byte) (s : State) : Result :=
  .next (addToMemory 1 (.zp z) (s.baseCycles 0xE6) s)

/-- INC zpx, opcode $F6 (R90). -/
def execIncZpx (z : Byte) (s : State) : Result :=
  .next (addToMemory 1 (.zpx z) (s.baseCycles 0xF6) s)

/-- INC abs, opcode $EE (R90). -/
def execIncAbs (adr : Addr) (s : State) : Result :=
  .next (addToMemory 1 (.abs adr) (s.baseCycles 0xEE) s)

/-- INC abx, opcode $FE (R90). -/
def execIncAbx (adr : Addr) (s : State) : Result :=
  .next (addToMemory 1 (.abx adr) (s.baseCycles 0xFE) s)

/-- DEC zp, opcode $C6 (R91). -/
def execDecZp (z : Byte) (s : State) : Result :=
  .next (addToMemory (-1) (.zp z) (s.baseCycles 0xC6) s)

/-- DEC zpx, opcode $D6 (R91). -/
def execDecZpx (z : Byte) (s : State) : Result :=
  .next (addToMemory (-1) (.zpx z) (s.baseCycles 0xD6) s)

/-- DEC abs, opcode $CE (R91). -/
def execDecAbs (adr : Addr) (s : State) : Result :=
  .next (addToMemory (-1) (.abs adr) (s.baseCycles 0xCE) s)

/-- DEC abx, opcode $DE (R91). -/
def execDecAbx (adr : Addr) (s : State) : Result :=
  .next (addToMemory (-1) (.abx adr) (s.baseCycles 0xDE) s)

/-- INX, opcode $E8: X <- X +8 1; setNZ(X) (R92). -/
def execInx (s : State) : Result :=
  .next (((s.setX (s.x + 1)).setNZ (s.x + 1)).addCycles (s.baseCycles 0xE8))

/-- INY, opcode $C8: Y <- Y +8 1; setNZ(Y) (R93). -/
def execIny (s : State) : Result :=
  .next (((s.setY (s.y + 1)).setNZ (s.y + 1)).addCycles (s.baseCycles 0xC8))

/-- DEX, opcode $CA: X <- X -8 1; setNZ(X) (R94). -/
def execDex (s : State) : Result :=
  .next (((s.setX (s.x - 1)).setNZ (s.x - 1)).addCycles (s.baseCycles 0xCA))

/-- DEY, opcode $88: Y <- Y -8 1; setNZ(Y) (R95). -/
def execDey (s : State) : Result :=
  .next (((s.setY (s.y - 1)).setNZ (s.y - 1)).addCycles (s.baseCycles 0x88))

end Sys2Proof.Machine
end

