-- ==== Sys2Proof/Machine/Control.lean ====
section
/-! DEFINITION. Jumps, subroutines, BRK, RTI and branches (44_control_transfer.md R100 to R113). -/

namespace Sys2Proof.Machine

/-- `branch(cond)`: taken, PC is the target and the extra is 1 within the page of PCnext, 2 across; not taken, PC
stays PCnext (R105, R59). -/
def branch (cond : Bool) (off : Byte) (base : Nat) (s : State) : State :=
  let target := branchTarget s.pc off
  if cond then (s.setPc target).addCycles (base + (if page s.pc = page target then 1 else 2))
  else s.addCycles base

/-- JMP abs, opcode $4C: PC <- hi:lo (R100). -/
def execJmpAbs (adr : Addr) (s : State) : Result :=
  .next ((s.setPc adr).addCycles (s.baseCycles 0x4C))

/-- JMP ind, opcode $6C: PC <- the pointer's word, with the page-wrap defect (R100). -/
def execJmpInd (adr : Addr) (s : State) : Result :=
  .next (((afterIndirect s adr).setPc (indirectTarget s adr)).addCycles (s.baseCycles 0x6C))

/-- JSR, opcode $20: push PCnext - 1, high byte first; PC <- target, fetched before the pushes (R101). -/
def execJsr (adr : Addr) (s : State) : Result :=
  .next (((pushAddr (s.pc - 1) s).setPc adr).addCycles (s.baseCycles 0x20))

/-- RTS, opcode $60: pull low then high; PC <- hi:lo + 1 (R102). -/
def execRts (s : State) : Result :=
  .next (((afterPullAddr s).setPc (pulledAddr s + 1)).addCycles (s.baseCycles 0x60))

/-- BRK, opcode $00: trap with the return address opaddr + 2 = PCnext + 1 (R103). -/
def execBrk (s : State) : Result :=
  .next ((takeTrap (s.pc + 1) s).addCycles (s.baseCycles 0x00))

/-- RTI, opcode $40: return from the trap, no increment (R104). -/
def execRti (s : State) : Result :=
  .next ((returnFromTrap s).addCycles (s.baseCycles 0x40))

/-- BCC, opcode $90: taken if C = 0 (R106). -/
def execBcc (off : Byte) (s : State) : Result :=
  .next (branch (!s.flags.c) off (s.baseCycles 0x90) s)

/-- BCS, opcode $B0: taken if C = 1 (R107). -/
def execBcs (off : Byte) (s : State) : Result :=
  .next (branch s.flags.c off (s.baseCycles 0xB0) s)

/-- BEQ, opcode $F0: taken if Z = 1 (R108). -/
def execBeq (off : Byte) (s : State) : Result :=
  .next (branch s.flags.z off (s.baseCycles 0xF0) s)

/-- BNE, opcode $D0: taken if Z = 0 (R109). -/
def execBne (off : Byte) (s : State) : Result :=
  .next (branch (!s.flags.z) off (s.baseCycles 0xD0) s)

/-- BMI, opcode $30: taken if N = 1 (R110). -/
def execBmi (off : Byte) (s : State) : Result :=
  .next (branch s.flags.n off (s.baseCycles 0x30) s)

/-- BPL, opcode $10: taken if N = 0 (R111). -/
def execBpl (off : Byte) (s : State) : Result :=
  .next (branch (!s.flags.n) off (s.baseCycles 0x10) s)

/-- BVC, opcode $50: taken if V = 0 (R112). -/
def execBvc (off : Byte) (s : State) : Result :=
  .next (branch (!s.flags.v) off (s.baseCycles 0x50) s)

/-- BVS, opcode $70: taken if V = 1 (R113). -/
def execBvs (off : Byte) (s : State) : Result :=
  .next (branch s.flags.v off (s.baseCycles 0x70) s)

end Sys2Proof.Machine
end

