-- ==== Sys2Proof/Machine/FlagOps.lean ====
section
/-! DEFINITION. The flag instructions and NOP (45_flags_misc.md R114 to R121). -/

namespace Sys2Proof.Machine

/-- CLC, opcode $18: C <- 0 (R114). -/
def execClc (s : State) : Result :=
  .next ((s.setFlags { s.flags with c := false }).addCycles (s.baseCycles 0x18))

/-- SEC, opcode $38: C <- 1 (R115). -/
def execSec (s : State) : Result :=
  .next ((s.setFlags { s.flags with c := true }).addCycles (s.baseCycles 0x38))

/-- CLI, opcode $58: I <- 0 (R116). -/
def execCli (s : State) : Result :=
  .next ((s.setFlags { s.flags with i := false }).addCycles (s.baseCycles 0x58))

/-- SEI, opcode $78: I <- 1 (R117). -/
def execSei (s : State) : Result :=
  .next ((s.setFlags { s.flags with i := true }).addCycles (s.baseCycles 0x78))

/-- CLV, opcode $B8: V <- 0 (R118). -/
def execClv (s : State) : Result :=
  .next ((s.setFlags { s.flags with v := false }).addCycles (s.baseCycles 0xB8))

/-- CLD, opcode $D8: D <- 0 (R119). -/
def execCld (s : State) : Result :=
  .next ((s.setFlags { s.flags with d := false }).addCycles (s.baseCycles 0xD8))

/-- SED, opcode $F8: D <- 1 (R120). -/
def execSed (s : State) : Result :=
  .next ((s.setFlags { s.flags with d := true }).addCycles (s.baseCycles 0xF8))

/-- NOP, opcode $EA: nothing but PC and CYC (R121). -/
def execNop (s : State) : Result :=
  .next (s.addCycles (s.baseCycles 0xEA))

end Sys2Proof.Machine
end

