-- ==== Sys2Proof/Machine/LoadStore.lean ====
section
/-! DEFINITION. Loads, stores and register transfers (40_load_store_transfer.md R61 to R72). A meaning sees the
state after the fetch: PC is PCnext (R51). Its base count is `CYCLES` at its opcode (R59). -/

namespace Sys2Proof.Machine

/-- LDA: A <- M; setNZ(A) (R61). -/
def loadA (o : Source) (base : Nat) (s : State) : State :=
  (((o.consume s).setA (o.value s)).setNZ (o.value s)).addCycles (base + o.extra s)

/-- LDX: X <- M; setNZ(X) (R62). -/
def loadX (o : Source) (base : Nat) (s : State) : State :=
  (((o.consume s).setX (o.value s)).setNZ (o.value s)).addCycles (base + o.extra s)

/-- LDY: Y <- M; setNZ(Y) (R63). -/
def loadY (o : Source) (base : Nat) (s : State) : State :=
  (((o.consume s).setY (o.value s)).setNZ (o.value s)).addCycles (base + o.extra s)

/-- STA, STX, STY: MemWrite(ea, v), one write and no read of ea; the count is fixed (R64, R65, R66, R54, R59). -/
def store (o : MemOperand) (v : Byte) (base : Nat) (s : State) : State :=
  (busWrite s (o.ea s) v).addCycles base

/-- LDA imm, opcode $A9 (R61). -/
def execLdaImm (v : Byte) (s : State) : Result :=
  .next (loadA (.imm v) (s.baseCycles 0xA9) s)

/-- LDA zp, opcode $A5 (R61). -/
def execLdaZp (z : Byte) (s : State) : Result :=
  .next (loadA (.mem (.zp z)) (s.baseCycles 0xA5) s)

/-- LDA zpx, opcode $B5 (R61). -/
def execLdaZpx (z : Byte) (s : State) : Result :=
  .next (loadA (.mem (.zpx z)) (s.baseCycles 0xB5) s)

/-- LDA abs, opcode $AD (R61). -/
def execLdaAbs (adr : Addr) (s : State) : Result :=
  .next (loadA (.mem (.abs adr)) (s.baseCycles 0xAD) s)

/-- LDA abx, opcode $BD (R61). -/
def execLdaAbx (adr : Addr) (s : State) : Result :=
  .next (loadA (.mem (.abx adr)) (s.baseCycles 0xBD) s)

/-- LDA aby, opcode $B9 (R61). -/
def execLdaAby (adr : Addr) (s : State) : Result :=
  .next (loadA (.mem (.aby adr)) (s.baseCycles 0xB9) s)

/-- LDA izx, opcode $A1 (R61). -/
def execLdaIzx (z : Byte) (s : State) : Result :=
  .next (loadA (.mem (.izx z)) (s.baseCycles 0xA1) s)

/-- LDA izy, opcode $B1 (R61). -/
def execLdaIzy (z : Byte) (s : State) : Result :=
  .next (loadA (.mem (.izy z)) (s.baseCycles 0xB1) s)

/-- LDX imm, opcode $A2 (R62). -/
def execLdxImm (v : Byte) (s : State) : Result :=
  .next (loadX (.imm v) (s.baseCycles 0xA2) s)

/-- LDX zp, opcode $A6 (R62). -/
def execLdxZp (z : Byte) (s : State) : Result :=
  .next (loadX (.mem (.zp z)) (s.baseCycles 0xA6) s)

/-- LDX zpy, opcode $B6 (R62). -/
def execLdxZpy (z : Byte) (s : State) : Result :=
  .next (loadX (.mem (.zpy z)) (s.baseCycles 0xB6) s)

/-- LDX abs, opcode $AE (R62). -/
def execLdxAbs (adr : Addr) (s : State) : Result :=
  .next (loadX (.mem (.abs adr)) (s.baseCycles 0xAE) s)

/-- LDX aby, opcode $BE (R62). -/
def execLdxAby (adr : Addr) (s : State) : Result :=
  .next (loadX (.mem (.aby adr)) (s.baseCycles 0xBE) s)

/-- LDY imm, opcode $A0 (R63). -/
def execLdyImm (v : Byte) (s : State) : Result :=
  .next (loadY (.imm v) (s.baseCycles 0xA0) s)

/-- LDY zp, opcode $A4 (R63). -/
def execLdyZp (z : Byte) (s : State) : Result :=
  .next (loadY (.mem (.zp z)) (s.baseCycles 0xA4) s)

/-- LDY zpx, opcode $B4 (R63). -/
def execLdyZpx (z : Byte) (s : State) : Result :=
  .next (loadY (.mem (.zpx z)) (s.baseCycles 0xB4) s)

/-- LDY abs, opcode $AC (R63). -/
def execLdyAbs (adr : Addr) (s : State) : Result :=
  .next (loadY (.mem (.abs adr)) (s.baseCycles 0xAC) s)

/-- LDY abx, opcode $BC (R63). -/
def execLdyAbx (adr : Addr) (s : State) : Result :=
  .next (loadY (.mem (.abx adr)) (s.baseCycles 0xBC) s)

/-- STA zp, opcode $85 (R64). -/
def execStaZp (z : Byte) (s : State) : Result :=
  .next (store (.zp z) s.a (s.baseCycles 0x85) s)

/-- STA zpx, opcode $95 (R64). -/
def execStaZpx (z : Byte) (s : State) : Result :=
  .next (store (.zpx z) s.a (s.baseCycles 0x95) s)

/-- STA abs, opcode $8D (R64). -/
def execStaAbs (adr : Addr) (s : State) : Result :=
  .next (store (.abs adr) s.a (s.baseCycles 0x8D) s)

/-- STA abx, opcode $9D (R64). -/
def execStaAbx (adr : Addr) (s : State) : Result :=
  .next (store (.abx adr) s.a (s.baseCycles 0x9D) s)

/-- STA aby, opcode $99 (R64). -/
def execStaAby (adr : Addr) (s : State) : Result :=
  .next (store (.aby adr) s.a (s.baseCycles 0x99) s)

/-- STA izx, opcode $81 (R64). -/
def execStaIzx (z : Byte) (s : State) : Result :=
  .next (store (.izx z) s.a (s.baseCycles 0x81) s)

/-- STA izy, opcode $91 (R64). -/
def execStaIzy (z : Byte) (s : State) : Result :=
  .next (store (.izy z) s.a (s.baseCycles 0x91) s)

/-- STX zp, opcode $86 (R65). -/
def execStxZp (z : Byte) (s : State) : Result :=
  .next (store (.zp z) s.x (s.baseCycles 0x86) s)

/-- STX zpy, opcode $96 (R65). -/
def execStxZpy (z : Byte) (s : State) : Result :=
  .next (store (.zpy z) s.x (s.baseCycles 0x96) s)

/-- STX abs, opcode $8E (R65). -/
def execStxAbs (adr : Addr) (s : State) : Result :=
  .next (store (.abs adr) s.x (s.baseCycles 0x8E) s)

/-- STY zp, opcode $84 (R66). -/
def execStyZp (z : Byte) (s : State) : Result :=
  .next (store (.zp z) s.y (s.baseCycles 0x84) s)

/-- STY zpx, opcode $94 (R66). -/
def execStyZpx (z : Byte) (s : State) : Result :=
  .next (store (.zpx z) s.y (s.baseCycles 0x94) s)

/-- STY abs, opcode $8C (R66). -/
def execStyAbs (adr : Addr) (s : State) : Result :=
  .next (store (.abs adr) s.y (s.baseCycles 0x8C) s)

/-- TAX, opcode $AA: X <- A; setNZ(X) (R67). -/
def execTax (s : State) : Result :=
  .next (((s.setX s.a).setNZ s.a).addCycles (s.baseCycles 0xAA))

/-- TAY, opcode $A8: Y <- A; setNZ(Y) (R68). -/
def execTay (s : State) : Result :=
  .next (((s.setY s.a).setNZ s.a).addCycles (s.baseCycles 0xA8))

/-- TXA, opcode $8A: A <- X; setNZ(A) (R69). -/
def execTxa (s : State) : Result :=
  .next (((s.setA s.x).setNZ s.x).addCycles (s.baseCycles 0x8A))

/-- TYA, opcode $98: A <- Y; setNZ(A) (R70). -/
def execTya (s : State) : Result :=
  .next (((s.setA s.y).setNZ s.y).addCycles (s.baseCycles 0x98))

/-- TSX, opcode $BA: X <- SP; setNZ(X) (R71). -/
def execTsx (s : State) : Result :=
  .next (((s.setX s.sp).setNZ s.sp).addCycles (s.baseCycles 0xBA))

/-- TXS, opcode $9A: SP <- X, no flag (R72). -/
def execTxs (s : State) : Result :=
  .next ((s.setSp s.x).addCycles (s.baseCycles 0x9A))

end Sys2Proof.Machine
end

