-- ==== Sys2Proof/Machine/Shift.lean ====
section
/-! DEFINITION. Shifts and rotates (43_shift_rotate.md R96 to R99). -/

namespace Sys2Proof.Machine

/-- ASL, LSR, ROL, ROR: r from the operand and the old C; store(r); C, N and Z (R96 to R99). -/
def shift (f : Byte → Bool → Shifted) (o : Target) (base : Nat) (s : State) : State :=
  let u := f (o.value s) s.flags.c
  ((o.store u.r s).setFlags (s.flags.setShift u)).addCycles base

/-- ASL acc, opcode $0A (R96). -/
def execAslAcc (s : State) : Result :=
  .next (shift asl .acc (s.baseCycles 0x0A) s)

/-- ASL zp, opcode $06 (R96). -/
def execAslZp (z : Byte) (s : State) : Result :=
  .next (shift asl (.mem (.zp z)) (s.baseCycles 0x06) s)

/-- ASL zpx, opcode $16 (R96). -/
def execAslZpx (z : Byte) (s : State) : Result :=
  .next (shift asl (.mem (.zpx z)) (s.baseCycles 0x16) s)

/-- ASL abs, opcode $0E (R96). -/
def execAslAbs (adr : Addr) (s : State) : Result :=
  .next (shift asl (.mem (.abs adr)) (s.baseCycles 0x0E) s)

/-- ASL abx, opcode $1E (R96). -/
def execAslAbx (adr : Addr) (s : State) : Result :=
  .next (shift asl (.mem (.abx adr)) (s.baseCycles 0x1E) s)

/-- LSR acc, opcode $4A (R97). -/
def execLsrAcc (s : State) : Result :=
  .next (shift lsr .acc (s.baseCycles 0x4A) s)

/-- LSR zp, opcode $46 (R97). -/
def execLsrZp (z : Byte) (s : State) : Result :=
  .next (shift lsr (.mem (.zp z)) (s.baseCycles 0x46) s)

/-- LSR zpx, opcode $56 (R97). -/
def execLsrZpx (z : Byte) (s : State) : Result :=
  .next (shift lsr (.mem (.zpx z)) (s.baseCycles 0x56) s)

/-- LSR abs, opcode $4E (R97). -/
def execLsrAbs (adr : Addr) (s : State) : Result :=
  .next (shift lsr (.mem (.abs adr)) (s.baseCycles 0x4E) s)

/-- LSR abx, opcode $5E (R97). -/
def execLsrAbx (adr : Addr) (s : State) : Result :=
  .next (shift lsr (.mem (.abx adr)) (s.baseCycles 0x5E) s)

/-- ROL acc, opcode $2A (R98). -/
def execRolAcc (s : State) : Result :=
  .next (shift rol .acc (s.baseCycles 0x2A) s)

/-- ROL zp, opcode $26 (R98). -/
def execRolZp (z : Byte) (s : State) : Result :=
  .next (shift rol (.mem (.zp z)) (s.baseCycles 0x26) s)

/-- ROL zpx, opcode $36 (R98). -/
def execRolZpx (z : Byte) (s : State) : Result :=
  .next (shift rol (.mem (.zpx z)) (s.baseCycles 0x36) s)

/-- ROL abs, opcode $2E (R98). -/
def execRolAbs (adr : Addr) (s : State) : Result :=
  .next (shift rol (.mem (.abs adr)) (s.baseCycles 0x2E) s)

/-- ROL abx, opcode $3E (R98). -/
def execRolAbx (adr : Addr) (s : State) : Result :=
  .next (shift rol (.mem (.abx adr)) (s.baseCycles 0x3E) s)

/-- ROR acc, opcode $6A (R99). -/
def execRorAcc (s : State) : Result :=
  .next (shift ror .acc (s.baseCycles 0x6A) s)

/-- ROR zp, opcode $66 (R99). -/
def execRorZp (z : Byte) (s : State) : Result :=
  .next (shift ror (.mem (.zp z)) (s.baseCycles 0x66) s)

/-- ROR zpx, opcode $76 (R99). -/
def execRorZpx (z : Byte) (s : State) : Result :=
  .next (shift ror (.mem (.zpx z)) (s.baseCycles 0x76) s)

/-- ROR abs, opcode $6E (R99). -/
def execRorAbs (adr : Addr) (s : State) : Result :=
  .next (shift ror (.mem (.abs adr)) (s.baseCycles 0x6E) s)

/-- ROR abx, opcode $7E (R99). -/
def execRorAbx (adr : Addr) (s : State) : Result :=
  .next (shift ror (.mem (.abx adr)) (s.baseCycles 0x7E) s)

end Sys2Proof.Machine
end

