-- ==== Sys2Proof/Machine/Stack.lean ====
section
/-! DEFINITION. The push and pull instructions (41_stack.md R75 to R78). -/

namespace Sys2Proof.Machine

/-- PHA, opcode $48: push(A) (R75). -/
def execPha (s : State) : Result :=
  .next ((push s.a s).addCycles (s.baseCycles 0x48))

/-- PHP, opcode $08: push(pack()), bits 4 and 5 forced to 1 (R76). -/
def execPhp (s : State) : Result :=
  .next ((push s.flags.pack s).addCycles (s.baseCycles 0x08))

/-- PLA, opcode $68: A <- pull(); setNZ(A) (R77). -/
def execPla (s : State) : Result :=
  .next ((((afterPull s).setA (pulled s)).setNZ (pulled s)).addCycles (s.baseCycles 0x68))

/-- PLP, opcode $28: unpack(pull()), B kept (R78). -/
def execPlp (s : State) : Result :=
  .next (((afterPull s).setFlags (s.flags.unpack (pulled s))).addCycles (s.baseCycles 0x28))

end Sys2Proof.Machine
end

