-- ==== Sys2Proof/Machine/Fetch.lean ====
section
/-! DEFINITION. The byte-serial instruction fetch (30_encoding.md R51, 60_exceptions.md R122), and the placing of
an instruction where the next step fetches it. -/

namespace Sys2Proof.Machine

/-- The state after `fetch8`: the byte at PC has been read and PC has advanced by one, modulo 65536 (R51, R16). -/
def afterFetch8 (s : State) : State := (afterRead s s.pc).setPc (s.pc + 1)

/-- Fetch `n` bytes, each at the current PC (R51): the bytes in order and the state after. -/
def fetchBytes (n : Nat) (s : State) : List Byte × State :=
  match n with
  | 0 => ([], s)
  | k + 1 => (busRead s s.pc :: (fetchBytes k (afterFetch8 s)).1, (fetchBytes k (afterFetch8 s)).2)

/-- Fetch one instruction: the opcode byte, then the operand bytes its mode has, none for an unimplemented opcode
(R50, R122). The answer is what the decoder makes of them, and the state whose PC is PCnext. -/
def fetchInstr (s : State) : Except Reject (Instr × List Byte) × State :=
  let fetched := fetchBytes (fetchLength (busRead s s.pc)) s
  (decode fetched.1, fetched.2)

/-- Whether a byte stored at `a` is the byte a fetch reads there: RAM, or a VIC register (R46). -/
def storable (a : Addr) : Bool :=
  match region a with
  | .ram => true
  | .vicWindow => decide (a ≠ 0xD030)
  | _ => false

/-- Where `placeBytes` puts an instruction: at PC, or at $0200 where a byte at PC could not be stored (log 14). -/
def placeAt (pc : Addr) : Addr :=
  if storable pc && storable (pc + 1) && storable (pc + 2) then pc else 0x0200

/-- Store three bytes where the next step fetches, moving PC only where it must (log 14). -/
def placeBytes (b0 b1 b2 : Byte) (s : State) : State :=
  let p := placeAt s.pc
  busWrite (busWrite (busWrite (s.setPc p) p b0) (p + 1) b1) (p + 2) b2

end Sys2Proof.Machine
end

