-- ==== Sys2Proof/Machine/Step.lean ====
section
/-! DEFINITION. One step of the CPU (60_exceptions.md R122): fetch, decode, execute. -/

namespace Sys2Proof.Machine

/-- `step()`: execute exactly one instruction, or record the UnimplementedOpcode fault (R122, R124, R125). -/
def step (s : State) : Host.Outcome State Fault Refusal :=
  match fetchInstr s with
  | (.ok (i, _), s1) => exec i s1
  | (.error _, s1) => takeUnimplementedOpcode (busRead s s.pc) s.pc s1

/-- `s` with the instruction of a table word stored where `step` fetches its next instruction (log 14). -/
def State.withFetchWord (s : State) (nbits w : Nat) : State :=
  placeBytes (tableByte nbits w 0) (tableByte nbits w 1) (tableByte nbits w 2) s

end Sys2Proof.Machine
end

