-- ==== Sys2Proof/Machine/Video.lean ====
section
/-! DEFINITION. The VideoChip (60_exceptions.md section 6): geometry, pixel colour, render and publish. -/

namespace Sys2Proof.Machine

/-- `VidRead(a)`, the VIC-private view: CHAR_ROM at $D000–$DFFF, RAM elsewhere (R37, D23). It changes no state. -/
def vidRead (s : State) (a : Addr) : Byte :=
  if 0xD000 ≤ a.toNat ∧ a.toNat ≤ 0xDFFF then Config.charRom (BitVec.ofNat 12 (a.toNat - 0xD000)) else ramAt s a

/-- `SCREEN_BASE` (R144, D22). -/
def screenBase : Nat := 0x0400

/-- `CHAR_BASE` (R144, D23). -/
def charBase : Nat := 0xD000

/-- The low four bits of a colour register (R142, R143, R145). -/
def colourIndex (v : Byte) : BitVec 4 := v.setWidth 4

/-- `border() = VIC.reg[$20] & $0F` (R142). -/
def borderColour (s : State) : BitVec 4 := colourIndex s.vic[0x20]

/-- `background() = VIC.reg[$21] & $0F` (R143). -/
def backgroundColour (s : State) : BitVec 4 := colourIndex s.vic[0x21]

/-- `charbit(cx, cy)`: the glyph bit of the screen code of the cell, bit 7 leftmost (R144). -/
def charBit (s : State) (cx cy : Nat) : Bool :=
  let code := busRead s (BitVec.ofNat 16 (screenBase + (cy / 8) * 40 + cx / 8))
  let g := vidRead s (BitVec.ofNat 16 (charBase + code.toNat * 8 + cy % 8))
  g.getLsbD (7 - cx % 8)

/-- The 9-bit X position of sprite `i`: bit i of $10 over register 2i (R145). -/
def spriteX (s : State) (i : Fin 8) : Nat :=
  (s.vic[0x10].getLsbD i.val).toNat * 256 + (s.vic[2 * i.val]'(by omega)).toNat

/-- The Y position of sprite `i`: register 2i + 1 (R145). -/
def spriteY (s : State) (i : Fin 8) : Nat := (s.vic[2 * i.val + 1]'(by omega)).toNat

/-- `spritebit(i, cx, cy)`: an opaque pixel of an enabled sprite (R145). -/
def spriteBit (p : Config.VideoParams) (s : State) (i : Fin 8) (cx cy : Nat) : Bool :=
  let col : Int := cx + p.spriteX0 - spriteX s i
  let row : Int := cy + p.spriteY0 - spriteY s i
  if s.vic[0x15].getLsbD i.val && decide (0 ≤ col ∧ col < 24 ∧ 0 ≤ row ∧ row < 21) then
    let ptr := busRead s (BitVec.ofNat 16 (screenBase + 0x3F8 + i.val))
    let b := busRead s (BitVec.ofNat 16 (ptr.toNat * 64 + row.toNat * 3 + col.toNat / 8))
    b.getLsbD (7 - col.toNat % 8)
  else false

/-- `VIC.reg[$27 + i] & $0F` (R145). -/
def spriteColour (s : State) (i : Fin 8) : BitVec 4 := colourIndex (s.vic[0x27 + i.val]'(by omega))

/-- The sprites in painting order: "for i = 7 downto 0", so that sprite 0 paints last (R141, R145). -/
def spriteOrder : List (Fin 8) := [7, 6, 5, 4, 3, 2, 1, 0]

/-- Paint sprite `i` over colour `c` where its pixel is opaque (R141). -/
def spriteOver (p : Config.VideoParams) (s : State) (cx cy : Nat) (c : BitVec 4) (i : Fin 8) : BitVec 4 :=
  if spriteBit p s i cx cy then spriteColour s i else c

/-- The colour index inside the content rectangle: background, then character, then sprites (R141). -/
def contentColour (p : Config.VideoParams) (s : State) (cx cy : Nat) : BitVec 4 :=
  spriteOrder.foldl (spriteOver p s cx cy) (if charBit s cx cy then p.fgColor else backgroundColour s)

/-- The content rectangle 40 <= fx < 360 and 40 <= fy < 240 (R138). -/
def inContent (fx fy : Nat) : Bool := decide (40 ≤ fx ∧ fx < 360 ∧ 40 ≤ fy ∧ fy < 240)

/-- The colour index of frame-buffer pixel (fx, fy); the border is exclusive (R141). -/
def pixelColour (p : Config.VideoParams) (s : State) (fx fy : Nat) : BitVec 4 :=
  if inContent fx fy then contentColour p s (fx - 40) (fy - 40) else borderColour s

/-- `rgba(c)`: the palette entry with alpha 255 (R146). -/
def rgba (p : Config.VideoParams) (c : BitVec 4) : Rgba :=
  let e := p.palette[c.toNat]'c.isLt
  ⟨e.r, e.g, e.b, 255⟩

/-- `paint(rx, ry)`: nothing in the blank margins, else the pixel's colour into FRONT (R138, R141). -/
def paint (p : Config.VideoParams) (s : State) : State :=
  if p.hBlankLeft ≤ s.rx.val ∧ s.rx.val < p.hBlankLeft + 400 ∧
      p.vBlankTop ≤ s.ry.val ∧ s.ry.val < p.vBlankTop + 280 then
    let fx := s.rx.val - p.hBlankLeft
    let fy := s.ry.val - p.vBlankTop
    { s with front := s.front.paint fx fy (rgba p (pixelColour p s fx fy)) }
  else s

/-- `publish()`: BACK <- FRONT; FRONT is not cleared (R140). -/
def publish (s : State) : State := { s with back := s.front }

/-- Advance the raster by one position; publish at the wrap past the last line (R139). -/
def advance (s : State) : State :=
  if hx : s.rx.val + 1 < 504 then { s with rx := ⟨s.rx.val + 1, hx⟩ }
  else if hy : s.ry.val + 1 < 312 then { s with rx := 0, ry := ⟨s.ry.val + 1, hy⟩ }
  else publish { s with rx := 0, ry := 0 }

/-- `k` pixel clocks: paint, then advance, in raster order (R139, D31). -/
def pixelClocks (p : Config.VideoParams) (k : Nat) (s : State) : State :=
  match k with
  | 0 => s
  | j + 1 => pixelClocks p j (advance (paint p s))

/-- `render(n)`: 8 pixel clocks per cycle of the host's budget (R139, R155). -/
def render (p : Config.VideoParams) (n : Nat) (s : State) : State := pixelClocks p (8 * n) s

end Sys2Proof.Machine
end

