-- ==== Sys2Proof/Machine/System.lean ====
section
/-! DEFINITION. The operations the host calls (70_reset_and_hazards.md R148 to R157), each one transition of the
whole state. -/

namespace Sys2Proof.Machine

/-- The OPEN parameters `initialize` takes: RESET_REGS, RESET_RAM, RESET_VIC, INIT_FRONT and INIT_BACK (R6, R29).
RAM and frames list what differs from $00 (log 17). -/
structure ResetParams where
  pc : Addr
  sp : Byte
  a : Byte
  x : Byte
  y : Byte
  flags : Flags
  ram : List (Addr × Byte)
  vic : Vector Byte 48
  front : List (Fin 112000 × Rgba)
  back : List (Fin 112000 × Rgba)
  deriving DecidableEq, Repr

/-- The decided defaults (D15, D16, D17). -/
def ResetParams.default : ResetParams where
  pc := 0x0000
  sp := 0xFF
  a := 0x00
  x := 0x00
  y := 0x00
  flags := resetFlags
  ram := []
  vic := Vector.replicate 48 0
  front := []
  back := []

/-- The OPEN parameters of a run: "fixed for a run and written by no operation" (R28, R6). Every host call of a run
takes the same, so every initialize of a run builds the same System (R148). CYCLES is the field of State (log 20), and
the ROMs, DECIMAL_V_ADC, DECIMAL_V_SBC and VIC_OOR_READ are constants of Config. -/
structure RunParams where
  video : Config.VideoParams
  reset : ResetParams
  deriving DecidableEq, Repr

/-- The decided defaults; for tests only. -/
def RunParams.default : RunParams where
  video := Config.defaultVideo
  reset := ResetParams.default

/-- `initialize()`: every piece of state at the value of R29; no bus read, no instruction, no vector (R148). The
draw counter goes on, so that a later read of $D030 is still a fresh draw (log 5), and `CYCLES` is a parameter, which
no operation writes (R28). -/
def initialised (p : ResetParams) (s : State) : State where
  pc := p.pc
  sp := p.sp
  a := p.a
  x := p.x
  y := p.y
  flags := p.flags
  cyc := 0
  faultLog := []
  ram := Memory.ofList p.ram
  vic := p.vic
  rx := 0
  ry := 0
  front := FrameBuffer.ofList p.front
  back := FrameBuffer.ofList p.back
  draws := s.draws
  cycleTable := s.cycleTable

/-- Write a byte list from an address up, in order, through the Bus write path (R152, D28). -/
def writeBytes (a : Nat) (bytes : List Byte) (s : State) : State :=
  match bytes with
  | [] => s
  | b :: rest => writeBytes (a + 1) rest (busWrite s (BitVec.ofNat 16 a) b)

/-- `loadBytes(a, bytes)`: refused unless a + len <= 65536 (R152). -/
def loadBytes (a : Nat) (bytes : List Byte) (s : State) : Result :=
  if loadFits a bytes.length then .next (writeBytes a bytes s) else .refused (.loadOutOfRange a bytes.length)

/-- `setProgramCounter(a)`: refused unless a <= $FFFF (R153). -/
def setProgramCounter (a : Nat) (s : State) : Result :=
  if pcFits a then .next (s.setPc (BitVec.ofNat 16 a)) else .refused (.programCounterOutOfRange a)

/-- The Boolean `step()` returns: success, or failure on an unimplemented opcode (R124, R154; log 8). -/
def stepReturns (s : State) : Bool := (lookup (busRead s s.pc)).isSome

/-- What `readRegisters()` shows (R156, D27). -/
structure Registers where
  pc : Addr
  sp : Byte
  a : Byte
  x : Byte
  y : Byte
  n : Bool
  v : Bool
  b : Bool
  d : Bool
  i : Bool
  z : Bool
  c : Bool
  cyc : Nat
  deriving DecidableEq, Repr

/-- `readRegisters()` (R156). -/
def readRegisters (s : State) : Registers where
  pc := s.pc
  sp := s.sp
  a := s.a
  x := s.x
  y := s.y
  n := s.flags.n
  v := s.flags.v
  b := s.flags.b
  d := s.flags.d
  i := s.flags.i
  z := s.flags.z
  c := s.flags.c
  cyc := s.cyc

/-- The host's operations with what the host supplies (R151). -/
inductive HostOp where
  | initialise
  | loadBytes (a : Nat) (bytes : List Byte)
  | setProgramCounter (a : Nat)
  | step
  | render (n : Nat)
  | renderFrame
  | readRegisters
  deriving DecidableEq, Repr

/-- What an operation returns (R151). -/
inductive Reply where
  | nothing
  | success (ok : Bool)
  | frame (f : FrameBuffer)
  | registers (r : Registers)
  deriving DecidableEq, Repr

/-- Pair a result's state with a reply. -/
def withReply (r : Result) (reply : Reply) : Host.Outcome (State × Reply) Fault Refusal :=
  match r with
  | .next s => .next (s, reply)
  | .fault e => .fault e
  | .refused e => .refused e

/-- One host operation (R151): the new state and the reply. `renderFrame` returns a copy of BACK, never FRONT
(R155). -/
def hostCall (p : RunParams) (op : HostOp) (s : State) : Host.Outcome (State × Reply) Fault Refusal :=
  match op with
  | .initialise => .next (initialised p.reset s, .nothing)
  | .loadBytes a bytes => withReply (loadBytes a bytes s) .nothing
  | .setProgramCounter a => withReply (setProgramCounter a s) .nothing
  | .step => withReply (step s) (.success (stepReturns s))
  | .render n => .next (render p.video n s, .nothing)
  | .renderFrame => .next (s, .frame s.back)
  | .readRegisters => .next (s, .registers (readRegisters s))

/-- A point of a run as the host sees it: the state, and what the last `step()` since initialize returned, none
before the first (R154, R158; log 24). -/
structure RunPoint where
  state : State
  lastStep : Option Bool
  deriving DecidableEq, Repr

/-- What the host knows of the last step after an operation and its reply: a step's Boolean replaces it, a new
initialize forgets it, every other operation keeps it (R148, R154). -/
def lastStepAfter (op : HostOp) (reply : Reply) (last : Option Bool) : Option Bool :=
  match op, reply with
  | .initialise, _ => none
  | _, .success ok => some ok
  | _, _ => last

/-- One host operation at a point of a run. -/
def RunPoint.call (r : RunPoint) (p : RunParams) (op : HostOp) : Host.Outcome RunPoint Fault Refusal :=
  match hostCall p op r.state with
  | .next (t, reply) => .next ⟨t, lastStepAfter op reply r.lastStep⟩
  | .fault e => .fault e
  | .refused e => .refused e

/-- A whole run: the host's operations one after another, in the order the host chooses (R157), under
parameters fixed for the run (R28). -/
def RunPoint.run (p : RunParams) (ops : List HostOp) (r : RunPoint) : Host.Outcome RunPoint Fault Refusal :=
  match ops with
  | [] => .next r
  | op :: rest =>
    match r.call p op with
    | .next u => RunPoint.run p rest u
    | .fault e => .fault e
    | .refused e => .refused e

end Sys2Proof.Machine
end

