-- ==== Sys2Proof/Safety.lean ====
section
/-! DEFINITION. What claims about runs speak of: the invariant of the state, the end conditions of
70_reset_and_hazards.md R158, and a run without a logged fault. -/

namespace Sys2Proof.Machine

/-- The invariant every operation keeps: RAM and both frame buffers are in canonical form. The other bounds of
10_state.md (widths, 48 registers, the raster's range) are held by the fields' types. -/
abbrev State.Inv (s : State) : Prop := s.ram.wf = true ∧ s.front.wf = true ∧ s.back.wf = true

/-- `AtSelfJump(s)`: the three bytes at PC are `JMP *` (R158). -/
abbrev AtSelfJump (s : State) : Prop :=
  busRead s s.pc = 0x4C ∧ busRead s (s.pc + 1) = loByte s.pc ∧ busRead s (s.pc + 2) = hiByte s.pc

/-- `Faulted`: the last step of the run returned failure (R158, R154). What a step returned is known to the host and
is no state of the machine (R28), so this speaks of a point of a run (log 24). -/
abbrev Faulted (r : RunPoint) : Prop := r.lastStep = some false

/-- "No fault logged", the premise under which claims about a program hold (D19). -/
abbrev NoFaultLogged (s : State) : Prop := s.faultLog = []

/-- How many draws one read of `a` uses up: one at $D030, none elsewhere (R35). -/
def drawsAt (a : Addr) : Nat := if a = 0xD030 then 1 else 0

/-- The draws an operand read uses up: one where ea is $D030 (R35). -/
def drawsBy (o : Source) (s : State) : Nat :=
  match o with
  | .imm _ => 0
  | .mem m => drawsAt (m.ea s)

/-- The draws the fetch of `n` bytes (1 to 3) from `p` uses up: one for each fetched address that is $D030. -/
def fetchDraws (n : Nat) (p : Addr) : Nat :=
  drawsAt p + (if 2 ≤ n then drawsAt (p + 1) else 0) + (if 3 ≤ n then drawsAt (p + 2) else 0)

/-- The raster position as one number, in scan order. -/
def rasterIndex (s : State) : Nat := s.ry.val * 504 + s.rx.val

/-- The 49 addresses of the VIC window (R35). -/
abbrev InVicWindow (a : Addr) : Prop := 0xD000 ≤ a.toNat ∧ a.toNat ≤ 0xD030

/-- What storing the byte `v` at `ea` does to memory, said through the reads of one byte: the RAM cell at `ea`
takes `v` unless `ea` is in the VIC window; the register at $D000 + k takes `v` where `ea` names it; every other
cell and register is as before (R33, R35). -/
abbrev StoredByte (s t : State) (ea : Addr) (v : Byte) : Prop :=
  (∀ a : Addr, ramAt t a = if a = ea ∧ ¬ InVicWindow ea then v else ramAt s a) ∧
  (∀ (k : Nat) (h : k < 48), t.vic[k] = if ea.toNat = 0xD000 + k then v else s.vic[k])

/-- The VideoChip's own state is the same: raster position and both frame buffers (R26, R27). -/
abbrev SameVideo (s t : State) : Prop := t.rx = s.rx ∧ t.ry = s.ry ∧ t.front = s.front ∧ t.back = s.back

end Sys2Proof.Machine
end

