-- ==== Sys2Proof/Certificates/Slice0/Obligations.lean ====
section
/-! DEFINITION. The statements for the provers. `exec i s` is stated for the state `s` after the fetch of `i`, so
`s.pc` is PCnext, the address after the instruction's last byte (R51; log 9); Obligations.StepRunsTheDecodedInstruction
carries these statements to `step`. -/

namespace Sys2Proof.Machine

/-! ### Words the statements share -/

/-- The bytes decode to the instruction, whatever follows them. -/
abbrev DecodesTo (bytes : List Byte) (i : Instr) : Prop :=
  ∀ rest : List Byte, decode (bytes ++ rest) = .ok (i, rest)

/-- The bytes are a form of the instruction, and its base count in the default of `CYCLES` is the one the opcode map
gives (R55, R59). -/
abbrev IsForm (bytes : List Byte) (i : Instr) (base : Nat) : Prop :=
  DecodesTo bytes i ∧ sparseGet 0 defaultCycles i.opcode.toNat = base

/-- One form of a read-class instruction: its bytes, its instruction, where `M` comes from, its base
count in the opcode map. -/
structure ReadForm where
  bytes : List Byte
  instr : Instr
  source : Source
  base : Nat

/-- One form of a write or read-modify-write instruction: its bytes, its instruction, its memory operand, its
base count in the opcode map. -/
structure WriteForm where
  bytes : List Byte
  instr : Instr
  dest : MemOperand
  base : Nat

/-- The page-cross cycle of the read class: abx, aby and izy only (R59). -/
def pageCrossCost (o : Source) (s : State) : Nat :=
  match o with
  | .mem (.abx adr) => if adr.toNat / 256 = (adr + zext16 s.x).toNat / 256 then 0 else 1
  | .mem (.aby adr) => if adr.toNat / 256 = (adr + zext16 s.y).toNat / 256 then 0 else 1
  | .mem (.izy z) =>
    if (zeroPagePointer s z).toNat / 256 = (zeroPagePointer s z + zext16 s.y).toNat / 256 then 0 else 1
  | _ => 0

/-- `s` with only what every read-class instruction changes: its cycles, for whatever table of base counts `s`
carries, and the draw of a read of $D030. -/
def afterReading (f : ReadForm) (s : State) : State :=
  { s with
    cyc := s.cyc + (s.baseCycles f.instr.opcode + pageCrossCost f.source s)
    draws := s.draws + drawsBy f.source s }

/-- N says bit 7 of `v` is set, Z says `v` is zero, the other flags are kept (R12). -/
def nzOf (f : Flags) (v : Byte) : Flags := { f with n := decide (128 ≤ v.toNat), z := decide (v.toNat = 0) }

/-- The stack byte a stack pointer designates (R15). -/
def stackCell (p : Byte) : Addr := BitVec.ofNat 16 (0x0100 + p.toNat)

/-- The pushed status byte N V 1 1 D I Z C (R19). -/
def statusByte (f : Flags) : Byte :=
  BitVec.ofNat 8
    (128 * f.n.toNat + 64 * f.v.toNat + 32 + 16 + 8 * f.d.toNat + 4 * f.i.toNat + 2 * f.z.toNat + f.c.toNat)

/-- The flags after a status byte is pulled: N V D I Z C from bits 7 6 3 2 1 0, B kept (R20). -/
def flagsFrom (f : Flags) (p : Byte) : Flags :=
  ⟨p.getLsbD 7, p.getLsbD 6, f.b, p.getLsbD 3, p.getLsbD 2, p.getLsbD 1, p.getLsbD 0⟩

/-- The registers, flags, counters, log and video state a memory write leaves alone: `t` is `s` but for RAM and
the VIC register file. -/
abbrev SameButMemory (s t : State) : Prop := t = { s with ram := t.ram, vic := t.vic }

/-! ### The forms of each instruction, as the encodings of its rule list them -/

/-- LDA (R61). -/
def ldaForms (b lo hi : Byte) : List ReadForm := [
  ⟨[0xA9, b], .ldaImm b, .imm b, 2⟩,
  ⟨[0xA5, b], .ldaZp b, .mem (.zp b), 3⟩,
  ⟨[0xB5, b], .ldaZpx b, .mem (.zpx b), 4⟩,
  ⟨[0xAD, lo, hi], .ldaAbs (hiLo hi lo), .mem (.abs (hiLo hi lo)), 4⟩,
  ⟨[0xBD, lo, hi], .ldaAbx (hiLo hi lo), .mem (.abx (hiLo hi lo)), 4⟩,
  ⟨[0xB9, lo, hi], .ldaAby (hiLo hi lo), .mem (.aby (hiLo hi lo)), 4⟩,
  ⟨[0xA1, b], .ldaIzx b, .mem (.izx b), 6⟩,
  ⟨[0xB1, b], .ldaIzy b, .mem (.izy b), 5⟩]

/-- LDX (R62). -/
def ldxForms (b lo hi : Byte) : List ReadForm := [
  ⟨[0xA2, b], .ldxImm b, .imm b, 2⟩,
  ⟨[0xA6, b], .ldxZp b, .mem (.zp b), 3⟩,
  ⟨[0xB6, b], .ldxZpy b, .mem (.zpy b), 4⟩,
  ⟨[0xAE, lo, hi], .ldxAbs (hiLo hi lo), .mem (.abs (hiLo hi lo)), 4⟩,
  ⟨[0xBE, lo, hi], .ldxAby (hiLo hi lo), .mem (.aby (hiLo hi lo)), 4⟩]

/-- LDY (R63). -/
def ldyForms (b lo hi : Byte) : List ReadForm := [
  ⟨[0xA0, b], .ldyImm b, .imm b, 2⟩,
  ⟨[0xA4, b], .ldyZp b, .mem (.zp b), 3⟩,
  ⟨[0xB4, b], .ldyZpx b, .mem (.zpx b), 4⟩,
  ⟨[0xAC, lo, hi], .ldyAbs (hiLo hi lo), .mem (.abs (hiLo hi lo)), 4⟩,
  ⟨[0xBC, lo, hi], .ldyAbx (hiLo hi lo), .mem (.abx (hiLo hi lo)), 4⟩]

/-- STA (R64). -/
def staForms (b lo hi : Byte) : List WriteForm := [
  ⟨[0x85, b], .staZp b, .zp b, 3⟩,
  ⟨[0x95, b], .staZpx b, .zpx b, 4⟩,
  ⟨[0x8D, lo, hi], .staAbs (hiLo hi lo), .abs (hiLo hi lo), 4⟩,
  ⟨[0x9D, lo, hi], .staAbx (hiLo hi lo), .abx (hiLo hi lo), 5⟩,
  ⟨[0x99, lo, hi], .staAby (hiLo hi lo), .aby (hiLo hi lo), 5⟩,
  ⟨[0x81, b], .staIzx b, .izx b, 6⟩,
  ⟨[0x91, b], .staIzy b, .izy b, 6⟩]

/-- STX (R65). -/
def stxForms (b lo hi : Byte) : List WriteForm := [
  ⟨[0x86, b], .stxZp b, .zp b, 3⟩,
  ⟨[0x96, b], .stxZpy b, .zpy b, 4⟩,
  ⟨[0x8E, lo, hi], .stxAbs (hiLo hi lo), .abs (hiLo hi lo), 4⟩]

/-- STY (R66). -/
def styForms (b lo hi : Byte) : List WriteForm := [
  ⟨[0x84, b], .styZp b, .zp b, 3⟩,
  ⟨[0x94, b], .styZpx b, .zpx b, 4⟩,
  ⟨[0x8C, lo, hi], .styAbs (hiLo hi lo), .abs (hiLo hi lo), 4⟩]

/-- ADC (R80). -/
def adcForms (b lo hi : Byte) : List ReadForm := [
  ⟨[0x69, b], .adcImm b, .imm b, 2⟩,
  ⟨[0x65, b], .adcZp b, .mem (.zp b), 3⟩,
  ⟨[0x75, b], .adcZpx b, .mem (.zpx b), 4⟩,
  ⟨[0x6D, lo, hi], .adcAbs (hiLo hi lo), .mem (.abs (hiLo hi lo)), 4⟩,
  ⟨[0x7D, lo, hi], .adcAbx (hiLo hi lo), .mem (.abx (hiLo hi lo)), 4⟩,
  ⟨[0x79, lo, hi], .adcAby (hiLo hi lo), .mem (.aby (hiLo hi lo)), 4⟩,
  ⟨[0x61, b], .adcIzx b, .mem (.izx b), 6⟩,
  ⟨[0x71, b], .adcIzy b, .mem (.izy b), 5⟩]

/-- SBC (R81). -/
def sbcForms (b lo hi : Byte) : List ReadForm := [
  ⟨[0xE9, b], .sbcImm b, .imm b, 2⟩,
  ⟨[0xE5, b], .sbcZp b, .mem (.zp b), 3⟩,
  ⟨[0xF5, b], .sbcZpx b, .mem (.zpx b), 4⟩,
  ⟨[0xED, lo, hi], .sbcAbs (hiLo hi lo), .mem (.abs (hiLo hi lo)), 4⟩,
  ⟨[0xFD, lo, hi], .sbcAbx (hiLo hi lo), .mem (.abx (hiLo hi lo)), 4⟩,
  ⟨[0xF9, lo, hi], .sbcAby (hiLo hi lo), .mem (.aby (hiLo hi lo)), 4⟩,
  ⟨[0xE1, b], .sbcIzx b, .mem (.izx b), 6⟩,
  ⟨[0xF1, b], .sbcIzy b, .mem (.izy b), 5⟩]

/-- AND (R82). -/
def andForms (b lo hi : Byte) : List ReadForm := [
  ⟨[0x29, b], .andImm b, .imm b, 2⟩,
  ⟨[0x25, b], .andZp b, .mem (.zp b), 3⟩,
  ⟨[0x35, b], .andZpx b, .mem (.zpx b), 4⟩,
  ⟨[0x2D, lo, hi], .andAbs (hiLo hi lo), .mem (.abs (hiLo hi lo)), 4⟩,
  ⟨[0x3D, lo, hi], .andAbx (hiLo hi lo), .mem (.abx (hiLo hi lo)), 4⟩,
  ⟨[0x39, lo, hi], .andAby (hiLo hi lo), .mem (.aby (hiLo hi lo)), 4⟩,
  ⟨[0x21, b], .andIzx b, .mem (.izx b), 6⟩,
  ⟨[0x31, b], .andIzy b, .mem (.izy b), 5⟩]

/-- ORA (R83). -/
def oraForms (b lo hi : Byte) : List ReadForm := [
  ⟨[0x09, b], .oraImm b, .imm b, 2⟩,
  ⟨[0x05, b], .oraZp b, .mem (.zp b), 3⟩,
  ⟨[0x15, b], .oraZpx b, .mem (.zpx b), 4⟩,
  ⟨[0x0D, lo, hi], .oraAbs (hiLo hi lo), .mem (.abs (hiLo hi lo)), 4⟩,
  ⟨[0x1D, lo, hi], .oraAbx (hiLo hi lo), .mem (.abx (hiLo hi lo)), 4⟩,
  ⟨[0x19, lo, hi], .oraAby (hiLo hi lo), .mem (.aby (hiLo hi lo)), 4⟩,
  ⟨[0x01, b], .oraIzx b, .mem (.izx b), 6⟩,
  ⟨[0x11, b], .oraIzy b, .mem (.izy b), 5⟩]

/-- EOR (R84). -/
def eorForms (b lo hi : Byte) : List ReadForm := [
  ⟨[0x49, b], .eorImm b, .imm b, 2⟩,
  ⟨[0x45, b], .eorZp b, .mem (.zp b), 3⟩,
  ⟨[0x55, b], .eorZpx b, .mem (.zpx b), 4⟩,
  ⟨[0x4D, lo, hi], .eorAbs (hiLo hi lo), .mem (.abs (hiLo hi lo)), 4⟩,
  ⟨[0x5D, lo, hi], .eorAbx (hiLo hi lo), .mem (.abx (hiLo hi lo)), 4⟩,
  ⟨[0x59, lo, hi], .eorAby (hiLo hi lo), .mem (.aby (hiLo hi lo)), 4⟩,
  ⟨[0x41, b], .eorIzx b, .mem (.izx b), 6⟩,
  ⟨[0x51, b], .eorIzy b, .mem (.izy b), 5⟩]

/-- BIT (R85). -/
def bitForms (b lo hi : Byte) : List ReadForm := [
  ⟨[0x24, b], .bitZp b, .mem (.zp b), 3⟩,
  ⟨[0x2C, lo, hi], .bitAbs (hiLo hi lo), .mem (.abs (hiLo hi lo)), 4⟩]

/-- CMP (R87). -/
def cmpForms (b lo hi : Byte) : List ReadForm := [
  ⟨[0xC9, b], .cmpImm b, .imm b, 2⟩,
  ⟨[0xC5, b], .cmpZp b, .mem (.zp b), 3⟩,
  ⟨[0xD5, b], .cmpZpx b, .mem (.zpx b), 4⟩,
  ⟨[0xCD, lo, hi], .cmpAbs (hiLo hi lo), .mem (.abs (hiLo hi lo)), 4⟩,
  ⟨[0xDD, lo, hi], .cmpAbx (hiLo hi lo), .mem (.abx (hiLo hi lo)), 4⟩,
  ⟨[0xD9, lo, hi], .cmpAby (hiLo hi lo), .mem (.aby (hiLo hi lo)), 4⟩,
  ⟨[0xC1, b], .cmpIzx b, .mem (.izx b), 6⟩,
  ⟨[0xD1, b], .cmpIzy b, .mem (.izy b), 5⟩]

/-- CPX (R88). -/
def cpxForms (b lo hi : Byte) : List ReadForm := [
  ⟨[0xE0, b], .cpxImm b, .imm b, 2⟩,
  ⟨[0xE4, b], .cpxZp b, .mem (.zp b), 3⟩,
  ⟨[0xEC, lo, hi], .cpxAbs (hiLo hi lo), .mem (.abs (hiLo hi lo)), 4⟩]

/-- CPY (R89). -/
def cpyForms (b lo hi : Byte) : List ReadForm := [
  ⟨[0xC0, b], .cpyImm b, .imm b, 2⟩,
  ⟨[0xC4, b], .cpyZp b, .mem (.zp b), 3⟩,
  ⟨[0xCC, lo, hi], .cpyAbs (hiLo hi lo), .mem (.abs (hiLo hi lo)), 4⟩]

/-- INC (R90). -/
def incForms (b lo hi : Byte) : List WriteForm := [
  ⟨[0xE6, b], .incZp b, .zp b, 5⟩,
  ⟨[0xF6, b], .incZpx b, .zpx b, 6⟩,
  ⟨[0xEE, lo, hi], .incAbs (hiLo hi lo), .abs (hiLo hi lo), 6⟩,
  ⟨[0xFE, lo, hi], .incAbx (hiLo hi lo), .abx (hiLo hi lo), 7⟩]

/-- DEC (R91). -/
def decForms (b lo hi : Byte) : List WriteForm := [
  ⟨[0xC6, b], .decZp b, .zp b, 5⟩,
  ⟨[0xD6, b], .decZpx b, .zpx b, 6⟩,
  ⟨[0xCE, lo, hi], .decAbs (hiLo hi lo), .abs (hiLo hi lo), 6⟩,
  ⟨[0xDE, lo, hi], .decAbx (hiLo hi lo), .abx (hiLo hi lo), 7⟩]

/-- ASL on memory (R96). -/
def aslForms (b lo hi : Byte) : List WriteForm := [
  ⟨[0x06, b], .aslZp b, .zp b, 5⟩,
  ⟨[0x16, b], .aslZpx b, .zpx b, 6⟩,
  ⟨[0x0E, lo, hi], .aslAbs (hiLo hi lo), .abs (hiLo hi lo), 6⟩,
  ⟨[0x1E, lo, hi], .aslAbx (hiLo hi lo), .abx (hiLo hi lo), 7⟩]

/-- LSR on memory (R97). -/
def lsrForms (b lo hi : Byte) : List WriteForm := [
  ⟨[0x46, b], .lsrZp b, .zp b, 5⟩,
  ⟨[0x56, b], .lsrZpx b, .zpx b, 6⟩,
  ⟨[0x4E, lo, hi], .lsrAbs (hiLo hi lo), .abs (hiLo hi lo), 6⟩,
  ⟨[0x5E, lo, hi], .lsrAbx (hiLo hi lo), .abx (hiLo hi lo), 7⟩]

/-- ROL on memory (R98). -/
def rolForms (b lo hi : Byte) : List WriteForm := [
  ⟨[0x26, b], .rolZp b, .zp b, 5⟩,
  ⟨[0x36, b], .rolZpx b, .zpx b, 6⟩,
  ⟨[0x2E, lo, hi], .rolAbs (hiLo hi lo), .abs (hiLo hi lo), 6⟩,
  ⟨[0x3E, lo, hi], .rolAbx (hiLo hi lo), .abx (hiLo hi lo), 7⟩]

/-- ROR on memory (R99). -/
def rorForms (b lo hi : Byte) : List WriteForm := [
  ⟨[0x66, b], .rorZp b, .zp b, 5⟩,
  ⟨[0x76, b], .rorZpx b, .zpx b, 6⟩,
  ⟨[0x6E, lo, hi], .rorAbs (hiLo hi lo), .abs (hiLo hi lo), 6⟩,
  ⟨[0x7E, lo, hi], .rorAbx (hiLo hi lo), .abx (hiLo hi lo), 7⟩]

/-- One branch: its opcode, its instruction and the condition it takes (R106 to R113). -/
structure BranchForm where
  opcode : Byte
  instr : Byte → Instr
  taken : Flags → Bool

/-- The eight branches (R106 to R113). -/
def branchForms : List BranchForm := [
  ⟨0x90, .bcc, fun f => !f.c⟩, ⟨0xB0, .bcs, fun f => f.c⟩,
  ⟨0xF0, .beq, fun f => f.z⟩, ⟨0xD0, .bne, fun f => !f.z⟩,
  ⟨0x30, .bmi, fun f => f.n⟩, ⟨0x10, .bpl, fun f => !f.n⟩,
  ⟨0x50, .bvc, fun f => !f.v⟩, ⟨0x70, .bvs, fun f => f.v⟩]

/-- One flag instruction: its opcode, its instruction and the flags it leaves (R114 to R120). -/
structure FlagForm where
  opcode : Byte
  instr : Instr
  after : Flags → Flags

/-- The seven flag instructions (R114 to R120). -/
def flagForms : List FlagForm := [
  ⟨0x18, .clc, fun f => { f with c := false }⟩, ⟨0x38, .sec, fun f => { f with c := true }⟩,
  ⟨0x58, .cli, fun f => { f with i := false }⟩, ⟨0x78, .sei, fun f => { f with i := true }⟩,
  ⟨0xB8, .clv, fun f => { f with v := false }⟩, ⟨0xD8, .cld, fun f => { f with d := false }⟩,
  ⟨0xF8, .sed, fun f => { f with d := true }⟩]

/-- The result, carry and overflow R80 gives ADC for the flags, A and M before it. -/
def adcOf (f : Flags) (a m : Byte) : Alu :=
  if f.d = false then
    let s := a.toNat + m.toNat + f.c.toNat
    let rb := BitVec.ofNat 8 s
    ⟨rb, decide (s > 255), a.msb == m.msb && rb.msb != a.msb⟩
  else
    let lo := a.toNat % 16 + m.toNat % 16 + f.c.toNat
    let hi := a.toNat / 16 + m.toNat / 16 + (if lo > 9 then 1 else 0)
    ⟨BitVec.ofNat 8 (16 * ((if hi > 9 then hi - 10 else hi) % 16) + (if lo > 9 then lo - 10 else lo) % 16),
      decide (hi > 9), Config.decimalVAdc a m f.c⟩

/-- The result, carry and overflow R81 gives SBC for the flags, A and M before it. -/
def sbcOf (f : Flags) (a m : Byte) : Alu :=
  if f.d = false then
    let s := a.toNat + (255 - m.toNat) + f.c.toNat
    let rb := BitVec.ofNat 8 s
    ⟨rb, decide (s > 255), a.msb != m.msb && rb.msb != a.msb⟩
  else
    let lo : Int := (a.toNat : Int) % 16 - (m.toNat : Int) % 16 - (1 - (f.c.toNat : Int))
    let hi : Int := (a.toNat : Int) / 16 - (m.toNat : Int) / 16 - (if lo < 0 then 1 else 0)
    ⟨BitVec.ofInt 8 (16 * ((if hi < 0 then hi + 10 else hi) % 16) + (if lo < 0 then lo + 10 else lo) % 16),
      decide (¬ hi < 0), Config.decimalVSbc a m f.c⟩

/-- The flags after ADC or SBC (R80, R81). -/
def arithFlags (f : Flags) (u : Alu) : Flags := nzOf { f with c := u.c, v := u.v } u.r

/-- The flags after compare(R, M) (R86). -/
def compareFlags (f : Flags) (r m : Byte) : Flags :=
  { f with c := decide (m.toNat ≤ r.toNat), z := decide (r.toNat = m.toNat),
           n := decide (128 ≤ (r.toNat + 256 - m.toNat) % 256) }

/-- A shift's rule: its accumulator form, its memory forms, the result and the carry out of an operand and the
old carry (R96 to R99). -/
structure ShiftRule where
  accOpcode : Byte
  accInstr : Instr
  forms : Byte → Byte → Byte → List WriteForm
  result : Byte → Bool → Byte
  carry : Byte → Bool

/-- ASL, LSR, ROL and ROR, in exact arithmetic (R96 to R99). -/
def shiftRules : List ShiftRule := [
  ⟨0x0A, .aslAcc, aslForms, fun m _ => BitVec.ofNat 8 (2 * m.toNat), fun m => decide (128 ≤ m.toNat)⟩,
  ⟨0x4A, .lsrAcc, lsrForms, fun m _ => BitVec.ofNat 8 (m.toNat / 2), fun m => decide (m.toNat % 2 = 1)⟩,
  ⟨0x2A, .rolAcc, rolForms, fun m c => BitVec.ofNat 8 (2 * m.toNat + c.toNat), fun m => decide (128 ≤ m.toNat)⟩,
  ⟨0x6A, .rorAcc, rorForms, fun m c => BitVec.ofNat 8 (m.toNat / 2 + 128 * c.toNat),
    fun m => decide (m.toNat % 2 = 1)⟩]

/-- The instructions R18 names as writers of N and Z. -/
def writersNZ : List Mnemonic := [.lda, .ldx, .ldy, .tax, .tay, .txa, .tya, .tsx, .pla, .adc, .sbc, .and, .ora, .eor,
  .bit, .cmp, .cpx, .cpy, .inc, .dec, .inx, .iny, .dex, .dey, .asl, .lsr, .rol, .ror, .plp, .rti]

/-- The instructions R18 names as writers of C. -/
def writersC : List Mnemonic :=
  [.adc, .sbc, .cmp, .cpx, .cpy, .asl, .lsr, .rol, .ror, .clc, .sec, .plp, .rti]

/-- The control transfers, which overwrite PC (R16). -/
def controlTransfers : List Mnemonic :=
  [.jmp, .jsr, .rts, .rti, .brk, .bcc, .bcs, .beq, .bne, .bmi, .bpl, .bvc, .bvs]

/-- The 105 unimplemented opcode bytes, as R57 lists them. -/
def unimplementedBytes : List Byte := [
  0x02, 0x03, 0x04, 0x07, 0x0B, 0x0C, 0x0F, 0x12, 0x13, 0x14, 0x17, 0x1A, 0x1B, 0x1C, 0x1F, 0x22, 0x23, 0x27,
  0x2B, 0x2F, 0x32, 0x33, 0x34, 0x37, 0x3A, 0x3B, 0x3C, 0x3F, 0x42, 0x43, 0x44, 0x47, 0x4B, 0x4F, 0x52, 0x53,
  0x54, 0x57, 0x5A, 0x5B, 0x5C, 0x5F, 0x62, 0x63, 0x64, 0x67, 0x6B, 0x6F, 0x72, 0x73, 0x74, 0x77, 0x7A, 0x7B,
  0x7C, 0x7F, 0x80, 0x82, 0x83, 0x87, 0x89, 0x8B, 0x8F, 0x92, 0x93, 0x97, 0x9B, 0x9C, 0x9E, 0x9F, 0xA3, 0xA7,
  0xAB, 0xAF, 0xB2, 0xB3, 0xB7, 0xBB, 0xBF, 0xC2, 0xC3, 0xC7, 0xCB, 0xCF, 0xD2, 0xD3, 0xD4, 0xD7, 0xDA, 0xDB,
  0xDC, 0xDF, 0xE2, 0xE3, 0xE7, 0xEB, 0xEF, 0xF2, 0xF3, 0xF4, 0xF7, 0xFA, 0xFB, 0xFC, 0xFF]

/-- The first sprite in priority order whose pixel is opaque at (cx, cy), sprite 0 first (R145). -/
def firstOpaque (p : Config.VideoParams) (s : State) (cx cy : Nat) : Option (Fin 8) :=
  [0, 1, 2, 3, 4, 5, 6, 7].find? (fun i => spriteBit p s i cx cy)

end Sys2Proof.Machine

open Sys2Proof Sys2Proof.Machine

/-! ### Loads, stores, transfers -/

/-- LDA, LDX and LDY, every form: the register takes M, N and Z follow it, nothing else changes but the cycles and
the draw of a read of $D030 (R61, R62, R63). -/
def Obligations.LoadsWriteTheirRegister : Prop :=
  ∀ (b lo hi : Byte) (s : State),
    (∀ f ∈ ldaForms b lo hi, IsForm f.bytes f.instr f.base ∧ exec f.instr s = .next { afterReading f s with
      a := f.source.value s, flags := nzOf s.flags (f.source.value s) }) ∧
    (∀ f ∈ ldxForms b lo hi, IsForm f.bytes f.instr f.base ∧ exec f.instr s = .next { afterReading f s with
      x := f.source.value s, flags := nzOf s.flags (f.source.value s) }) ∧
    (∀ f ∈ ldyForms b lo hi, IsForm f.bytes f.instr f.base ∧ exec f.instr s = .next { afterReading f s with
      y := f.source.value s, flags := nzOf s.flags (f.source.value s) })

/-- STA, STX and STY, every form: the byte at ea takes the register, every other byte of memory, register and flag
is as before, and the cycle count is fixed (R64, R65, R66). At $D030 nothing is stored (R35). -/
def Obligations.StoresWriteOneByte : Prop :=
  ∀ (b lo hi : Byte) (s : State), s.ram.wf = true →
    (∀ f ∈ staForms b lo hi, IsForm f.bytes f.instr f.base ∧ ∃ t, exec f.instr s = .next t ∧
      SameButMemory { s with cyc := s.cyc + s.baseCycles f.instr.opcode } t ∧ StoredByte s t (f.dest.ea s) s.a) ∧
    (∀ f ∈ stxForms b lo hi, IsForm f.bytes f.instr f.base ∧ ∃ t, exec f.instr s = .next t ∧
      SameButMemory { s with cyc := s.cyc + s.baseCycles f.instr.opcode } t ∧ StoredByte s t (f.dest.ea s) s.x) ∧
    (∀ f ∈ styForms b lo hi, IsForm f.bytes f.instr f.base ∧ ∃ t, exec f.instr s = .next t ∧
      SameButMemory { s with cyc := s.cyc + s.baseCycles f.instr.opcode } t ∧ StoredByte s t (f.dest.ea s) s.y)

/-- TAX TAY TXA TYA TSX copy and set N and Z; TXS copies and writes no flag; the base count of each is 2
in the default table (R67 to R72). -/
def Obligations.TransfersCopyOneRegister : Prop :=
  ∀ s : State,
    (IsForm [0xAA] .tax 2 ∧ exec .tax s = .next { s with
      x := s.a, flags := nzOf s.flags s.a, cyc := s.cyc + s.baseCycles 0xAA }) ∧
    (IsForm [0xA8] .tay 2 ∧ exec .tay s = .next { s with
      y := s.a, flags := nzOf s.flags s.a, cyc := s.cyc + s.baseCycles 0xA8 }) ∧
    (IsForm [0x8A] .txa 2 ∧ exec .txa s = .next { s with
      a := s.x, flags := nzOf s.flags s.x, cyc := s.cyc + s.baseCycles 0x8A }) ∧
    (IsForm [0x98] .tya 2 ∧ exec .tya s = .next { s with
      a := s.y, flags := nzOf s.flags s.y, cyc := s.cyc + s.baseCycles 0x98 }) ∧
    (IsForm [0xBA] .tsx 2 ∧ exec .tsx s = .next { s with
      x := s.sp, flags := nzOf s.flags s.sp, cyc := s.cyc + s.baseCycles 0xBA }) ∧
    (IsForm [0x9A] .txs 2 ∧ exec .txs s = .next { s with sp := s.x, cyc := s.cyc + s.baseCycles 0x9A })

/-! ### The stack -/

/-- PHA and PHP store one byte at $0100 | SP, then SP goes down by one, modulo 256; no register, flag or other byte
changes. PHP's byte is the status byte with bits 4 and 5 set (R73, R75, R76, R19). -/
def Obligations.PushesStoreAndDecrement : Prop :=
  ∀ s : State, s.ram.wf = true →
    (IsForm [0x48] .pha 3 ∧ ∃ t, exec .pha s = .next t ∧
      SameButMemory { s with sp := s.sp - 1, cyc := s.cyc + s.baseCycles 0x48 } t ∧
      StoredByte s t (stackCell s.sp) s.a) ∧
    (IsForm [0x08] .php 3 ∧ ∃ t, exec .php s = .next t ∧
      SameButMemory { s with sp := s.sp - 1, cyc := s.cyc + s.baseCycles 0x08 } t ∧
      StoredByte s t (stackCell s.sp) (statusByte s.flags))

/-- PLA and PLP move SP up by one, modulo 256, and read the byte there; PLA sets N and Z, PLP loads N V D I Z C and
keeps B; memory is unchanged (R74, R77, R78, R20). -/
def Obligations.PullsIncrementAndRead : Prop :=
  ∀ s : State,
    (IsForm [0x68] .pla 4 ∧ exec .pla s = .next { s with
      sp := s.sp + 1, a := ramAt s (stackCell (s.sp + 1)), flags := nzOf s.flags (ramAt s (stackCell (s.sp + 1))),
      cyc := s.cyc + s.baseCycles 0x68 }) ∧
    (IsForm [0x28] .plp 4 ∧ exec .plp s = .next { s with
      sp := s.sp + 1, flags := flagsFrom s.flags (ramAt s (stackCell (s.sp + 1))), cyc := s.cyc + s.baseCycles 0x28 })

/-- PHA then PLA gives back A and SP and sets N and Z of A; PHP then PLP gives back all seven flags and SP
(95_test_vectors.md W2, W3). -/
def Obligations.PushThenPullRoundTrips : Prop :=
  ∀ s : State, s.ram.wf = true →
    (∃ t u, exec .pha s = .next t ∧ exec .pla t = .next u ∧
      u = { s with ram := u.ram, flags := nzOf s.flags s.a, cyc := s.cyc + (s.baseCycles 0x48 + s.baseCycles 0x68) }) ∧
    (∃ t u, exec .php s = .next t ∧ exec .plp t = .next u ∧
      u = { s with ram := u.ram, cyc := s.cyc + (s.baseCycles 0x08 + s.baseCycles 0x28) })

/-! ### Arithmetic and logic -/

/-- ADC, every form, in both modes (R80). V in decimal mode is the free function DECIMAL_V_ADC (log 7). -/
def Obligations.AdcAddsWithCarry : Prop :=
  ∀ (b lo hi : Byte) (s : State), ∀ f ∈ adcForms b lo hi, IsForm f.bytes f.instr f.base ∧
    exec f.instr s = .next { afterReading f s with
      a := (adcOf s.flags s.a (f.source.value s)).r,
      flags := arithFlags s.flags (adcOf s.flags s.a (f.source.value s)) }

/-- SBC, every form, in both modes (R81). V in decimal mode is the free function DECIMAL_V_SBC (log 7). -/
def Obligations.SbcSubtractsWithBorrow : Prop :=
  ∀ (b lo hi : Byte) (s : State), ∀ f ∈ sbcForms b lo hi, IsForm f.bytes f.instr f.base ∧
    exec f.instr s = .next { afterReading f s with
      a := (sbcOf s.flags s.a (f.source.value s)).r,
      flags := arithFlags s.flags (sbcOf s.flags s.a (f.source.value s)) }

/-- In binary mode, V after ADC and SBC says that the exact signed sum or difference is outside -128..127, for every
carry; and C after SBC says that no borrow was needed. -/
def Obligations.BinaryOverflowIsSignedRange : Prop :=
  ∀ (m : Byte) (s : State), s.flags.d = false →
    (∃ t, exec (.adcImm m) s = .next t ∧
      (t.flags.v = true ↔ ¬ (-128 ≤ s.a.toInt + m.toInt + (s.flags.c.toNat : Int) ∧
        s.a.toInt + m.toInt + (s.flags.c.toNat : Int) ≤ 127))) ∧
    (∃ t, exec (.sbcImm m) s = .next t ∧
      (t.flags.v = true ↔ ¬ (-128 ≤ s.a.toInt - m.toInt - (1 - (s.flags.c.toNat : Int)) ∧
        s.a.toInt - m.toInt - (1 - (s.flags.c.toNat : Int)) ≤ 127)) ∧
      (t.flags.c = true ↔ m.toNat + (1 - s.flags.c.toNat) ≤ s.a.toNat))

/-- In decimal mode, on operands whose nibbles are decimal digits, ADC adds and SBC subtracts two-digit decimal
numbers: the result's digits are the sum or difference modulo 100, C is the decimal carry, or no borrow (D11). -/
def Obligations.DecimalModeComputesOnDigits : Prop :=
  ∀ (m : Byte) (s : State), s.flags.d = true →
    s.a.toNat % 16 < 10 → s.a.toNat / 16 < 10 → m.toNat % 16 < 10 → m.toNat / 16 < 10 →
    let na := 10 * (s.a.toNat / 16) + s.a.toNat % 16
    let nm := 10 * (m.toNat / 16) + m.toNat % 16
    (∃ t, exec (.adcImm m) s = .next t ∧ t.a.toNat % 16 < 10 ∧ t.a.toNat / 16 < 10 ∧
      10 * (t.a.toNat / 16) + t.a.toNat % 16 = (na + nm + s.flags.c.toNat) % 100 ∧
      (t.flags.c = true ↔ 100 ≤ na + nm + s.flags.c.toNat)) ∧
    (∃ t, exec (.sbcImm m) s = .next t ∧ t.a.toNat % 16 < 10 ∧ t.a.toNat / 16 < 10 ∧
      10 * (t.a.toNat / 16) + t.a.toNat % 16 = (na + 100 - nm - (1 - s.flags.c.toNat)) % 100 ∧
      (t.flags.c = true ↔ nm + (1 - s.flags.c.toNat) ≤ na))

/-- AND, ORA and EOR, every form: A takes the bitwise result, N and Z follow it (R82, R83, R84). -/
def Obligations.LogicWritesAccumulator : Prop :=
  ∀ (b lo hi : Byte) (s : State),
    (∀ f ∈ andForms b lo hi, IsForm f.bytes f.instr f.base ∧ exec f.instr s = .next { afterReading f s with
      a := s.a &&& f.source.value s, flags := nzOf s.flags (s.a &&& f.source.value s) }) ∧
    (∀ f ∈ oraForms b lo hi, IsForm f.bytes f.instr f.base ∧ exec f.instr s = .next { afterReading f s with
      a := s.a ||| f.source.value s, flags := nzOf s.flags (s.a ||| f.source.value s) }) ∧
    (∀ f ∈ eorForms b lo hi, IsForm f.bytes f.instr f.base ∧ exec f.instr s = .next { afterReading f s with
      a := s.a ^^^ f.source.value s, flags := nzOf s.flags (s.a ^^^ f.source.value s) })

/-- BIT, both forms: N and V are bits 7 and 6 of M, Z says A & M is zero, A is unchanged (R85). -/
def Obligations.BitTestsMemory : Prop :=
  ∀ (b lo hi : Byte) (s : State), ∀ f ∈ bitForms b lo hi, IsForm f.bytes f.instr f.base ∧
    exec f.instr s = .next { afterReading f s with flags := { s.flags with
      n := decide (128 ≤ (f.source.value s).toNat), v := decide (64 ≤ (f.source.value s).toNat % 128),
      z := decide ((s.a &&& f.source.value s).toNat = 0) } }

/-- CMP, CPX and CPY, every form: C, Z and N as compare(R, M), nothing stored, V and D without effect
(R86, R87, R88, R89). -/
def Obligations.ComparesSetFlagsOnly : Prop :=
  ∀ (b lo hi : Byte) (s : State),
    (∀ f ∈ cmpForms b lo hi, IsForm f.bytes f.instr f.base ∧ exec f.instr s = .next { afterReading f s with
      flags := compareFlags s.flags s.a (f.source.value s) }) ∧
    (∀ f ∈ cpxForms b lo hi, IsForm f.bytes f.instr f.base ∧ exec f.instr s = .next { afterReading f s with
      flags := compareFlags s.flags s.x (f.source.value s) }) ∧
    (∀ f ∈ cpyForms b lo hi, IsForm f.bytes f.instr f.base ∧ exec f.instr s = .next { afterReading f s with
      flags := compareFlags s.flags s.y (f.source.value s) })

/-- INC and DEC, every form: the byte at ea takes M plus or minus one, modulo 256, N and Z follow it, every other
byte, register and flag is as before (R90, R91). The byte read in a ROM window is the ROM's (R34). -/
def Obligations.IncDecWriteMemory : Prop :=
  ∀ (b lo hi : Byte) (s : State), s.ram.wf = true →
    (∀ f ∈ incForms b lo hi, IsForm f.bytes f.instr f.base ∧ ∃ t, exec f.instr s = .next t ∧
      SameButMemory { s with flags := nzOf s.flags (BitVec.ofNat 8 ((busRead s (f.dest.ea s)).toNat + 1)),
                             cyc := s.cyc + s.baseCycles f.instr.opcode, draws := s.draws + drawsAt (f.dest.ea s) } t ∧
      StoredByte s t (f.dest.ea s) (BitVec.ofNat 8 ((busRead s (f.dest.ea s)).toNat + 1))) ∧
    (∀ f ∈ decForms b lo hi, IsForm f.bytes f.instr f.base ∧ ∃ t, exec f.instr s = .next t ∧
      SameButMemory { s with flags := nzOf s.flags (BitVec.ofNat 8 ((busRead s (f.dest.ea s)).toNat + 255)),
                             cyc := s.cyc + s.baseCycles f.instr.opcode, draws := s.draws + drawsAt (f.dest.ea s) } t ∧
      StoredByte s t (f.dest.ea s) (BitVec.ofNat 8 ((busRead s (f.dest.ea s)).toNat + 255)))

/-- INX INY DEX DEY: the register takes its value plus or minus one, modulo 256, N and Z follow it (R92 to R95). -/
def Obligations.IndexRegistersCount : Prop :=
  ∀ s : State,
    (IsForm [0xE8] .inx 2 ∧ exec .inx s = .next { s with
      x := BitVec.ofNat 8 (s.x.toNat + 1),
      flags := nzOf s.flags (BitVec.ofNat 8 (s.x.toNat + 1)), cyc := s.cyc + s.baseCycles 0xE8 }) ∧
    (IsForm [0xC8] .iny 2 ∧ exec .iny s = .next { s with
      y := BitVec.ofNat 8 (s.y.toNat + 1),
      flags := nzOf s.flags (BitVec.ofNat 8 (s.y.toNat + 1)), cyc := s.cyc + s.baseCycles 0xC8 }) ∧
    (IsForm [0xCA] .dex 2 ∧ exec .dex s = .next { s with
      x := BitVec.ofNat 8 (s.x.toNat + 255),
      flags := nzOf s.flags (BitVec.ofNat 8 (s.x.toNat + 255)), cyc := s.cyc + s.baseCycles 0xCA }) ∧
    (IsForm [0x88] .dey 2 ∧ exec .dey s = .next { s with
      y := BitVec.ofNat 8 (s.y.toNat + 255),
      flags := nzOf s.flags (BitVec.ofNat 8 (s.y.toNat + 255)), cyc := s.cyc + s.baseCycles 0x88 })

/-! ### Shifts -/

/-- ASL, LSR, ROL, ROR on A and on memory: the result, C, N and Z; V, B, D and I are kept; in the memory forms A is
kept and one byte is stored (R96 to R99). -/
def Obligations.ShiftsMoveOneBit : Prop :=
  ∀ (b lo hi : Byte) (s : State), s.ram.wf = true → ∀ r ∈ shiftRules,
    (IsForm [r.accOpcode] r.accInstr 2 ∧ exec r.accInstr s = .next { s with
      a := r.result s.a s.flags.c, flags := nzOf { s.flags with c := r.carry s.a } (r.result s.a s.flags.c),
      cyc := s.cyc + s.baseCycles r.accOpcode }) ∧
    (∀ f ∈ r.forms b lo hi, IsForm f.bytes f.instr f.base ∧ ∃ t, exec f.instr s = .next t ∧
      SameButMemory { s with
        flags := nzOf { s.flags with c := r.carry (busRead s (f.dest.ea s)) }
          (r.result (busRead s (f.dest.ea s)) s.flags.c),
        cyc := s.cyc + s.baseCycles f.instr.opcode, draws := s.draws + drawsAt (f.dest.ea s) } t ∧
      StoredByte s t (f.dest.ea s) (r.result (busRead s (f.dest.ea s)) s.flags.c))

/-! ### Control transfer -/

/-- JMP: absolute to hi:lo; indirect to the word at the pointer, whose high byte comes from the same page
(R100, R53). -/
def Obligations.JumpsSetTheProgramCounter : Prop :=
  ∀ (lo hi : Byte) (s : State),
    (IsForm [0x4C, lo, hi] (.jmpAbs (hiLo hi lo)) 3 ∧
      exec (.jmpAbs (hiLo hi lo)) s = .next { s with pc := hiLo hi lo, cyc := s.cyc + s.baseCycles 0x4C }) ∧
    (IsForm [0x6C, lo, hi] (.jmpInd (hiLo hi lo)) 5 ∧
      exec (.jmpInd (hiLo hi lo)) s = .next { s with
        pc := hiLo (busRead s (hiLo hi (lo + 1))) (busRead s (hiLo hi lo)), cyc := s.cyc + s.baseCycles 0x6C,
        draws := s.draws + (drawsAt (hiLo hi lo) + drawsAt (hiLo hi (lo + 1))) })

/-- JSR: PC - 1 of PCnext is pushed, high byte first, SP goes down by two, PC is the target; no other byte, register
or flag changes (R101). -/
def Obligations.JsrPushesReturnAddress : Prop :=
  ∀ (lo hi : Byte) (s : State), s.ram.wf = true →
    IsForm [0x20, lo, hi] (.jsr (hiLo hi lo)) 6 ∧ ∃ t, exec (.jsr (hiLo hi lo)) s = .next t ∧
      t = { s with ram := t.ram, sp := s.sp - 2, pc := hiLo hi lo, cyc := s.cyc + s.baseCycles 0x20 } ∧
      (∀ a : Addr, ramAt t a =
        if a = stackCell s.sp then BitVec.ofNat 8 ((s.pc - 1).toNat / 256)
        else if a = stackCell (s.sp - 1) then BitVec.ofNat 8 ((s.pc - 1).toNat % 256)
        else ramAt s a)

/-- RTS: the low byte, then the high byte, are pulled, and PC is their word plus one, modulo 65536 (R102). -/
def Obligations.RtsReturnsPastTheCall : Prop :=
  ∀ s : State, IsForm [0x60] .rts 6 ∧ exec .rts s = .next { s with
    sp := s.sp + 2, cyc := s.cyc + s.baseCycles 0x60,
    pc := BitVec.ofNat 16 (256 * (ramAt s (stackCell (s.sp + 2))).toNat + (ramAt s (stackCell (s.sp + 1))).toNat + 1) }

/-- BRK: opaddr + 2, which is PCnext + 1, and the status byte are pushed in the order PC high, PC low, status; B and
I are set, the other flags are kept; PC comes from $FFFF:$FFFE, which is KERNAL ROM (R103, R127). -/
def Obligations.BrkTakesTheTrap : Prop :=
  ∀ s : State, s.ram.wf = true → IsForm [0x00] .brk 7 ∧ ∃ t, exec .brk s = .next t ∧
    t = { s with ram := t.ram, sp := s.sp - 3, flags := { s.flags with b := true, i := true },
                 pc := hiLo (busRead s 0xFFFF) (busRead s 0xFFFE), cyc := s.cyc + s.baseCycles 0x00 } ∧
    busRead s 0xFFFF = Config.kernalRom 0x1FFF ∧ busRead s 0xFFFE = Config.kernalRom 0x1FFE ∧
    (∀ a : Addr, ramAt t a =
      if a = stackCell s.sp then BitVec.ofNat 8 ((s.pc + 1).toNat / 256)
      else if a = stackCell (s.sp - 1) then BitVec.ofNat 8 ((s.pc + 1).toNat % 256)
      else if a = stackCell (s.sp - 2) then statusByte s.flags
      else ramAt s a)

/-- RTI: the status byte, then PC low, then PC high are pulled; B is kept; PC is not incremented (R104). -/
def Obligations.RtiRestoresStatusAndPc : Prop :=
  ∀ s : State, IsForm [0x40] .rti 6 ∧ exec .rti s = .next { s with
    sp := s.sp + 3, cyc := s.cyc + s.baseCycles 0x40, flags := flagsFrom s.flags (ramAt s (stackCell (s.sp + 1))),
    pc := BitVec.ofNat 16 (256 * (ramAt s (stackCell (s.sp + 3))).toNat + (ramAt s (stackCell (s.sp + 2))).toNat) }

/-- A JSR and the RTS of its subroutine give back PCnext, SP and every register and flag; a BRK and the RTI of its
handler give back SP and every flag but B, which stays 1, and resume at opaddr + 2. -/
def Obligations.ReturnsUndoTheirEntries : Prop :=
  ∀ (w : Addr) (s : State), s.ram.wf = true →
    (∃ t u, exec (.jsr w) s = .next t ∧ exec .rts t = .next u ∧
      u = { s with ram := u.ram, cyc := s.cyc + (s.baseCycles 0x20 + s.baseCycles 0x60) }) ∧
    (∃ t u, exec .brk s = .next t ∧ exec .rti t = .next u ∧
      u = { s with ram := u.ram, pc := s.pc + 1, flags := { s.flags with b := true },
                   cyc := s.cyc + (s.baseCycles 0x00 + s.baseCycles 0x40) })

/-- The eight branches: taken, PC is PCnext plus the signed offset modulo 65536, for one cycle more than the base count
within the page of PCnext and two across; not taken, PC stays and the cost is the base count, which is 2 in the default
table (R105 to R113). -/
def Obligations.BranchesTakeTheirCondition : Prop :=
  ∀ (off : Byte) (s : State), ∀ f ∈ branchForms, IsForm [f.opcode, off] (f.instr off) 2 ∧
    let target := BitVec.ofInt 16 ((s.pc.toNat : Int) + off.toInt)
    exec (f.instr off) s = .next (
      if f.taken s.flags = true then
        { s with pc := target, cyc := s.cyc +
          (s.baseCycles f.opcode + (if s.pc.toNat / 256 = target.toNat / 256 then 1 else 2)) }
      else { s with cyc := s.cyc + s.baseCycles f.opcode })

/-! ### Flags and NOP -/

/-- The seven flag instructions write their one flag; NOP only takes its cycles; the base count of each is 2 in the
default table (R114 to R121). -/
def Obligations.FlagInstructionsWriteOneFlag : Prop :=
  ∀ s : State,
    (∀ f ∈ flagForms, IsForm [f.opcode] f.instr 2 ∧
      exec f.instr s = .next { s with flags := f.after s.flags, cyc := s.cyc + s.baseCycles f.opcode }) ∧
    (IsForm [0xEA] .nop 2 ∧ exec .nop s = .next { s with cyc := s.cyc + s.baseCycles 0xEA })

/-! ### Encoding -/

/-- Decoding the encoding of any instruction gives it back, with every operand, and the bytes after it. -/
def Obligations.DecodeOfEncode : Prop :=
  ∀ (i : Instr) (rest : List Byte), i.wellFormed = true → decode (encode i ++ rest) = .ok (i, rest)

/-- What decodes to an instruction is that instruction's encoding: each instruction has one encoding, and its length
is the mode's (R50). -/
def Obligations.EncodeOfDecode : Prop :=
  ∀ (bytes rest : List Byte) (i : Instr), decode bytes = .ok (i, rest) →
    bytes = encode i ++ rest ∧ (encode i).length = i.length ∧ i.wellFormed = true

/-- Exactly the 105 listed bytes are unimplemented: the decoder refuses each by name without looking further, and
refuses no other opcode byte so (R57). -/
def Obligations.UnimplementedBytesAreRefused : Prop :=
  ∀ (op : Byte) (rest : List Byte),
    (op ∈ unimplementedBytes → decode (op :: rest) = .error (.unimplementedOpcode op)) ∧
    (op ∉ unimplementedBytes → decode (op :: rest) ≠ .error (.unimplementedOpcode op)) ∧
    unimplementedBytes.length = 105

/-- Some words of the spec's examples decode to the instructions they stand for. -/
def Obligations.SampleWordsDecode : Prop :=
  decode [0xB5, 0xF8] = .ok (.ldaZpx 0xF8, []) ∧ decode [0x9D, 0x00, 0x04] = .ok (.staAbx 0x0400, []) ∧
  decode [0x20, 0x00, 0xC1] = .ok (.jsr 0xC100, []) ∧ decode [0x6C, 0xFF, 0x12] = .ok (.jmpInd 0x12FF, []) ∧
  decode [0xD0, 0xF5] = .ok (.bne 0xF5, []) ∧ decode [0x0A] = .ok (.aslAcc, []) ∧ decode [0x08] = .ok (.php, []) ∧
  decode [0x69, 0x46] = .ok (.adcImm 0x46, []) ∧ decode [0xF8] = .ok (.sed, []) ∧
  decodeTableWord 24 0x12FF6C = some (.jmpInd 0x12FF) ∧ decodeTableWord 8 0x02 = none

/-! ### Addressing modes -/

/-- The effective address of each of the eight memory modes, in exact arithmetic: zero-page indexing and the
zero-page pointers of izx and izy wrap modulo 256, abx, aby and izy modulo 65536 (R52). -/
def Obligations.AddressingModesCompute : Prop :=
  ∀ (z : Byte) (adr : Addr) (s : State),
    ((MemOperand.zp z).ea s).toNat = z.toNat ∧
    ((MemOperand.zpx z).ea s).toNat = (z.toNat + s.x.toNat) % 256 ∧
    ((MemOperand.zpy z).ea s).toNat = (z.toNat + s.y.toNat) % 256 ∧
    (MemOperand.abs adr).ea s = adr ∧
    ((MemOperand.abx adr).ea s).toNat = (adr.toNat + s.x.toNat) % 65536 ∧
    ((MemOperand.aby adr).ea s).toNat = (adr.toNat + s.y.toNat) % 65536 ∧
    ((MemOperand.izx z).ea s).toNat =
      256 * (ramAt s (BitVec.ofNat 16 ((z.toNat + s.x.toNat + 1) % 256))).toNat +
        (ramAt s (BitVec.ofNat 16 ((z.toNat + s.x.toNat) % 256))).toNat ∧
    ((MemOperand.izy z).ea s).toNat =
      (256 * (ramAt s (BitVec.ofNat 16 ((z.toNat + 1) % 256))).toNat + (ramAt s (BitVec.ofNat 16 z.toNat)).toNat +
        s.y.toNat) % 65536

/-! ### The step -/

/-- When the bytes at PC decode to an instruction, the step is exec of it at the state whose PC is past the
instruction, modulo 65536, and whose draws count a fetch from $D030; nothing else differs (R51, R122). -/
def Obligations.StepRunsTheDecodedInstruction : Prop :=
  ∀ (s : State) (i : Instr) (rest : List Byte),
    decode [busRead s s.pc, busRead s (s.pc + 1), busRead s (s.pc + 2)] = .ok (i, rest) →
    step s = exec i { s with pc := s.pc + BitVec.ofNat 16 i.length, draws := s.draws + fetchDraws i.length s.pc }

/-- An unimplemented opcode: PC is its address plus one, the log gains (opcode, address), nothing else changes (but
the model's draw counter for a fetch at $D030), and the step returns failure (R125). That the step ANSWERS this
state, and does not stop, is the model's choice (log 8). In a run, Faulted holds after a step exactly when that step
met an unimplemented opcode; initialize forgets it, and every other operation keeps it (R158; log 24). -/
def Obligations.UnimplementedOpcodeIsLogged : Prop :=
  (∀ s : State, busRead s s.pc ∈ unimplementedBytes →
    step s = .next { s with
      pc := s.pc + 1, draws := s.draws + drawsAt s.pc,
      faultLog := s.faultLog ++ [.unimplementedOpcode (busRead s s.pc) s.pc] } ∧
    stepReturns s = false) ∧
  (∀ (p : RunParams) (r : RunPoint), ∃ u, r.call p .step = .next u ∧
    (Faulted u ↔ busRead r.state r.state.pc ∈ unimplementedBytes)) ∧
  (∀ (p : RunParams) (op : HostOp) (r u : RunPoint), op ≠ .step → r.call p op = .next u →
    (Faulted u ↔ Faulted r ∧ op ≠ .initialise))

/-- No implemented instruction faults and no step stops: every exec and every step answers a next state (R124, R129;
for an unimplemented opcode by the model's choice, log 8). -/
def Obligations.EveryStepAnswersNext : Prop :=
  (∀ (i : Instr) (s : State), ∃ t, exec i s = .next t) ∧ (∀ s : State, ∃ t, step s = .next t)

/-- CYC grows by `CYCLES[op]`, for whatever table the run has, and by at most the extra the cell of the opcode map
allows: 1 for a starred cell, 2 for a branch, else 0 (R59, R123). No instruction and no operation of the host
changes the table (R28), and its default is the base column of the opcode map (R55). -/
def Obligations.CyclesFollowTheOpcodeMap : Prop :=
  (∀ (i : Instr) (s t : State), exec i s = .next t → t.cycleTable = s.cycleTable ∧
    ∃ row, lookup i.opcode = some row ∧ sparseGet 0 defaultCycles i.opcode.toNat = row.cycles ∧
      s.cyc + s.baseCycles i.opcode ≤ t.cyc ∧
      t.cyc ≤ s.cyc + s.baseCycles i.opcode + (if row.cross = true then 1 else if row.mode = .rel then 2 else 0)) ∧
  (∀ (p : RunParams) (op : HostOp) (s t : State) (r : Reply), hostCall p op s = .next (t, r) →
    t.cycleTable = s.cycleTable)

/-- Every instruction that is no control transfer leaves PC at PCnext; so a successful step of one advances PC by
exactly the encoded length, modulo 65536 (R16). -/
def Obligations.OnlyControlTransfersMovePc : Prop :=
  (∀ (i : Instr) (s t : State), exec i s = .next t → i.mnemonic ∉ controlTransfers → t.pc = s.pc) ∧
  (∀ (s t : State) (i : Instr) (rest : List Byte),
    decode [busRead s s.pc, busRead s (s.pc + 1), busRead s (s.pc + 2)] = .ok (i, rest) →
    i.mnemonic ∉ controlTransfers → step s = .next t → t.pc.toNat = (s.pc.toNat + (encode i).length) % 65536)

/-- The writers of R18: each flag is unchanged by every instruction not listed for it. -/
def Obligations.FlagsChangeOnlyByTheirWriters : Prop :=
  ∀ (i : Instr) (s t : State), exec i s = .next t →
    (i.mnemonic ∉ writersNZ → t.flags.n = s.flags.n ∧ t.flags.z = s.flags.z) ∧
    (i.mnemonic ∉ [.adc, .sbc, .bit, .clv, .plp, .rti] → t.flags.v = s.flags.v) ∧
    (i.mnemonic ≠ .brk → t.flags.b = s.flags.b) ∧
    (i.mnemonic ∉ [.cld, .sed, .plp, .rti] → t.flags.d = s.flags.d) ∧
    (i.mnemonic ∉ [.cli, .sei, .brk, .plp, .rti] → t.flags.i = s.flags.i) ∧
    (i.mnemonic ∉ writersC → t.flags.c = s.flags.c)

/-- The writers of R14 and R15: A, X, Y and SP are unchanged by every instruction not listed for them. -/
def Obligations.RegistersChangeOnlyByTheirWriters : Prop :=
  ∀ (i : Instr) (s t : State), exec i s = .next t →
    (i.mnemonic ∉ [.lda, .pla, .txa, .tya, .adc, .sbc, .and, .ora, .eor] →
      i ∉ [.aslAcc, .lsrAcc, .rolAcc, .rorAcc] → t.a = s.a) ∧
    (i.mnemonic ∉ [.ldx, .tax, .tsx, .inx, .dex] → t.x = s.x) ∧
    (i.mnemonic ∉ [.ldy, .tay, .iny, .dey] → t.y = s.y) ∧
    (i.mnemonic ∉ [.txs, .pha, .php, .pla, .plp, .jsr, .rts, .rti, .brk] → t.sp = s.sp)

/-- Once B is set no step clears it, and a step that sets it has fetched BRK: RTI and PLP keep B (R104, R20). -/
def Obligations.BreakFlagIsSticky : Prop :=
  ∀ s t : State, step s = .next t →
    (s.flags.b = true → t.flags.b = true) ∧ (s.flags.b = false → t.flags.b = true → busRead s s.pc = 0x00)

/-- Memory is written only by the storing instructions: the others leave RAM and the register file as they are. -/
def Obligations.OnlyStoringInstructionsWriteMemory : Prop :=
  ∀ (i : Instr) (s t : State), exec i s = .next t →
    i.mnemonic ∉ [.sta, .stx, .sty, .inc, .dec, .asl, .lsr, .rol, .ror, .pha, .php, .jsr, .brk] →
    t.ram = s.ram ∧ t.vic = s.vic

/-! ### Invariants and memory -/

/-- Every step keeps the invariant: RAM and the frame buffers stay in canonical form. -/
def Obligations.StepKeepsInvariant : Prop :=
  ∀ s t : State, s.Inv → step s = .next t → t.Inv

/-- The reset state has the invariant. -/
def Obligations.InvariantHoldsAtReset : Prop := State.reset.Inv

/-- Every host operation keeps the invariant, render and loadBytes included, for every parameter in range. -/
def Obligations.HostOperationsKeepInvariant : Prop :=
  ∀ (p : RunParams) (op : HostOp) (s t : State) (r : Reply), s.Inv →
    hostCall p op s = .next (t, r) → t.Inv

/-- MemRead's map, in every window and at its edges (R31, R32, R35). -/
def Obligations.BusReadFollowsTheMap : Prop :=
  ∀ (s : State) (a : Addr),
    (∀ (k : Nat) (h : k < 48), a.toNat = 0xD000 + k → busRead s a = s.vic[k]) ∧
    (a.toNat = 0xD030 → busRead s a = Config.vicOorRead s.draws) ∧
    (∀ k : BitVec 13, a.toNat = 0xA000 + k.toNat → busRead s a = Config.basicRom k) ∧
    (∀ k : BitVec 13, a.toNat = 0xE000 + k.toNat → busRead s a = Config.kernalRom k) ∧
    (¬ InVicWindow a → ¬ (0xA000 ≤ a.toNat ∧ a.toNat ≤ 0xBFFF) → ¬ 0xE000 ≤ a.toNat → busRead s a = ramAt s a)

/-- A read after a write of a RAM address or a VIC register answers the byte written; a read in a ROM window answers
the ROM byte still, though the RAM under it has changed; other addresses read as before (R34, R44). -/
def Obligations.ReadAfterWrite : Prop :=
  ∀ (s : State) (a b : Addr) (v : Byte), s.ram.wf = true →
    (region a = .ram → busRead (busWrite s a v) a = v) ∧
    (region a = .vicWindow → a ≠ 0xD030 → busRead (busWrite s a v) a = v) ∧
    (region a = .basicRom ∨ region a = .kernalRom →
      busRead (busWrite s a v) a = busRead s a ∧ ramAt (busWrite s a v) a = v) ∧
    (b ≠ a → busRead (busWrite s a v) b = busRead s b)

/-- Canonical memories that read the same everywhere are equal as data. -/
def Obligations.CanonicalMemoriesAreEqual : Prop :=
  ∀ m n : Memory, m.wf = true → n.wf = true → (∀ a : Addr, m.read a = n.read a) → m = n

/-- A store is seen by the very next fetch: a NOP stored at PC runs as a NOP where PC is in RAM, and a store at a PC
in a ROM window does not change the byte fetched (inferences R46 marks "[derived]"). -/
def Obligations.NextFetchSeesTheStore : Prop :=
  ∀ s : State, s.ram.wf = true →
    (region s.pc = .ram → step (busWrite s s.pc 0xEA) =
      .next { busWrite s s.pc 0xEA with pc := s.pc + 1, cyc := s.cyc + s.baseCycles 0xEA }) ∧
    (region s.pc = .basicRom ∨ region s.pc = .kernalRom → ∀ v : Byte,
      busRead (busWrite s s.pc v) s.pc = busRead s s.pc)

/-- The cells under the VIC window are never written by the CPU (R23). -/
def Obligations.CellsUnderVicWindowNeverWritten : Prop :=
  ∀ (s t : State) (a : Addr), step s = .next t → InVicWindow a → ramAt t a = ramAt s a

/-- The fault log is append-only, one entry per failed step: over every host operation but initialize it grows by the
entry of a failed step or not at all (R22). -/
def Obligations.FaultLogOnlyGrows : Prop :=
  ∀ (p : RunParams) (op : HostOp) (s t : State) (r : Reply), hostCall p op s = .next (t, r) →
    op ≠ .initialise →
    t.faultLog = s.faultLog ++
      (if op = .step ∧ stepReturns s = false then [.unimplementedOpcode (busRead s s.pc) s.pc] else [])

/-- At `JMP *` outside $D030, any number of steps changes CYC alone, by the base count of JMP a step (R158). -/
def Obligations.SelfJumpIdles : Prop :=
  ∀ (n : Nat) (s : State), AtSelfJump s → s.pc ≠ 0xD030 → s.pc + 1 ≠ 0xD030 → s.pc + 2 ≠ 0xD030 →
    Host.Core.run Sys2Proof.core n s = (.next { s with cyc := s.cyc + s.baseCycles 0x4C * n } :
      Host.Outcome State Fault Refusal)

/-- initialize: every piece of state at the value the parameters give it, or at the value R29 decides, whatever the
state before; of RAM and the frame buffers the last entry for a cell or pixel counts, and the rest is 0 (R148, R29;
logs 2, 3, 17). CYCLES and the model's draw counter go on, so every
initialize of a run, whose parameters are fixed (R28), builds the same System but for these. The reset state is initialize at the defaults, spelled out
field by field: the decided values of R29 (CYC 0, empty log, raster at the origin) and the model's defaults for the
OPEN parameters and for CYCLES (logs 1, 2, 3, 20). -/
def Obligations.ResetLeavesTheDefaults : Prop :=
  (∀ (q : ResetParams) (s : State),
    (initialised q s).pc = q.pc ∧ (initialised q s).sp = q.sp ∧ (initialised q s).a = q.a ∧
    (initialised q s).x = q.x ∧ (initialised q s).y = q.y ∧ (initialised q s).flags = q.flags ∧
    (initialised q s).cyc = 0 ∧ (initialised q s).faultLog = [] ∧
    (∀ a : Addr, ramAt (initialised q s) a =
      match q.ram.reverse.find? (fun c => c.1 = a) with
      | some c => c.2
      | none => 0) ∧
    (initialised q s).vic = q.vic ∧ (initialised q s).rx.val = 0 ∧ (initialised q s).ry.val = 0 ∧
    (∀ fx fy : Nat, fx < 400 → fy < 280 → (initialised q s).front.pixel fx fy =
      match q.front.reverse.find? (fun e => e.1.val = fy * 400 + fx) with
      | some e => e.2
      | none => ⟨0, 0, 0, 0⟩) ∧
    (∀ fx fy : Nat, fx < 400 → fy < 280 → (initialised q s).back.pixel fx fy =
      match q.back.reverse.find? (fun e => e.1.val = fy * 400 + fx) with
      | some e => e.2
      | none => ⟨0, 0, 0, 0⟩) ∧
    (initialised q s).draws = s.draws ∧ (initialised q s).cycleTable = s.cycleTable) ∧
  (∀ (q : ResetParams) (s t : State),
    initialised q t = { initialised q s with draws := t.draws, cycleTable := t.cycleTable }) ∧
  (∀ s : State, initialised ResetParams.default s =
    { State.reset with draws := s.draws, cycleTable := s.cycleTable }) ∧
  State.reset.cyc = 0 ∧ State.reset.faultLog = [] ∧ State.reset.rx.val = 0 ∧ State.reset.ry.val = 0 ∧
  State.reset.pc = 0 ∧ State.reset.sp = 0xFF ∧ State.reset.a = 0 ∧ State.reset.x = 0 ∧ State.reset.y = 0 ∧
  State.reset.flags = ⟨false, false, false, false, false, false, false⟩ ∧
  (∀ a : Addr, ramAt State.reset a = 0) ∧ (∀ (k : Nat) (h : k < 48), State.reset.vic[k] = 0) ∧
  (∀ fx fy : Nat, State.reset.front.pixel fx fy = unpaintedPixel ∧ State.reset.back.pixel fx fy = unpaintedPixel) ∧
  unpaintedPixel = ⟨0, 0, 0, 0⟩ ∧ State.reset.cycleTable = defaultCycles

/-! ### The host and the VideoChip -/

/-- loadBytes: refused unless a + len <= 65536; else byte k is written at a + k through the Bus, every other cell and
register file byte is as before, and nothing else changes (R152). -/
def Obligations.LoadBytesWritesInOrder : Prop :=
  ∀ (a : Nat) (bytes : List Byte) (s : State), s.ram.wf = true →
    (65536 < a + bytes.length → loadBytes a bytes s = .refused (.loadOutOfRange a bytes.length)) ∧
    (a + bytes.length ≤ 65536 → ∃ t, loadBytes a bytes s = .next t ∧ SameButMemory s t ∧
      (∀ c : Addr, ramAt t c = if InVicWindow c then ramAt s c else
        if h : a ≤ c.toNat ∧ c.toNat - a < bytes.length then bytes[c.toNat - a] else ramAt s c) ∧
      (∀ (k : Nat) (hk : k < 48), t.vic[k] =
        if h : a ≤ 0xD000 + k ∧ 0xD000 + k - a < bytes.length then bytes[0xD000 + k - a] else s.vic[k]))

/-- The seven operations of the host interface (R151): initialize, loadBytes and render are the functions the other
statements speak of, with the parameters of the run; setProgramCounter sets PC and nothing else, refused past $FFFF; readRegisters and renderFrame
answer the registers and BACK and change no state; step answers its Boolean (R148, R152 to R156). That step answers a
next state in every state, one at an unimplemented opcode included, is the model's choice (log 8). -/
def Obligations.HostCallsAnswer : Prop :=
  ∀ (p : RunParams) (s : State),
    hostCall p .initialise s = .next (initialised p.reset s, .nothing) ∧
    (∀ (a : Nat) (bytes : List Byte), hostCall p (.loadBytes a bytes) s = withReply (loadBytes a bytes s) .nothing) ∧
    (∀ n : Nat, hostCall p (.render n) s = .next (render p.video n s, .nothing)) ∧
    (∀ a : Nat, a ≤ 0xFFFF →
      hostCall p (.setProgramCounter a) s = .next ({ s with pc := BitVec.ofNat 16 a }, .nothing)) ∧
    (∀ a : Nat, 0xFFFF < a → hostCall p (.setProgramCounter a) s = .refused (.programCounterOutOfRange a)) ∧
    hostCall p .renderFrame s = .next (s, .frame s.back) ∧
    hostCall p .readRegisters s = .next (s, .registers ⟨s.pc, s.sp, s.a, s.x, s.y, s.flags.n, s.flags.v, s.flags.b,
      s.flags.d, s.flags.i, s.flags.z, s.flags.c, s.cyc⟩) ∧
    (∃ t, step s = .next t ∧
      hostCall p .step s = .next (t, .success (decide (busRead s s.pc ∉ unimplementedBytes))))

/-- Only render moves the raster and the frame buffers: a step leaves them alone (R26, R27). -/
def Obligations.StepLeavesVideoAlone : Prop :=
  ∀ s t : State, step s = .next t → SameVideo s t

/-- render changes the raster and the frame buffers alone: no register, no flag, no counter, no byte of memory, no VIC
register (R139). -/
def Obligations.RenderTouchesOnlyVideo : Prop :=
  ∀ (p : RunParams) (n : Nat) (s : State), ∃ t, hostCall p (.render n) s = .next (t, .nothing) ∧
    t = { s with rx := t.rx, ry := t.ry, front := t.front, back := t.back }

/-- render(n) advances the raster by 8n positions of the 504×312 grid, in scan order, wrapping (R139). -/
def Obligations.RenderAdvancesTheRaster : Prop :=
  ∀ (p : Config.VideoParams) (n : Nat) (s : State),
    rasterIndex (render p n s) = (rasterIndex s + 8 * n) % (504 * 312)

/-- From the origin, BACK is untouched by any budget below 19656 cycles, and render(19656) publishes: BACK is FRONT
and the raster is at the origin again (R140, W9). -/
def Obligations.FrameIsPublishedAtTheWrap : Prop :=
  ∀ (p : Config.VideoParams) (s : State), rasterIndex s = 0 →
    (∀ n, n < 19656 → (render p n s).back = s.back) ∧
    (render p 19656 s).back = (render p 19656 s).front ∧ rasterIndex (render p 19656 s) = 0

/-- A whole frame from the origin paints every pixel of the buffer that is published with the colour the layers give
it, for every value of the OPEN video parameters in range (R138, R141): the pixel is that colour's entry of the palette
with alpha 255, and its bytes stand in the row-major image at 4*(fy*400 + fx) in the order R, G, B, A (R146, R27). -/
def Obligations.WholeFramePaintsEveryPixel : Prop :=
  ∀ (p : Config.VideoParams) (s : State), p.wellFormed = true → s.front.wf = true → rasterIndex s = 0 →
    ∀ fx fy : Nat, fx < 400 → fy < 280 →
      let e : Config.Rgb := p.palette[(pixelColour p s fx fy).toNat]'(pixelColour p s fx fy).isLt
      let image := (render p 19656 s).back
      image.pixel fx fy = ⟨e.r, e.g, e.b, 255⟩ ∧
      image.byte (4 * (fy * 400 + fx)) = e.r ∧ image.byte (4 * (fy * 400 + fx) + 1) = e.g ∧
      image.byte (4 * (fy * 400 + fx) + 2) = e.b ∧ image.byte (4 * (fy * 400 + fx) + 3) = 255

/-- The layers of a pixel: outside the content rectangle the border colour; inside, the lowest-numbered sprite that
is opaque there, else the foreground where the character bit is set, else the background (R141, R142, R143, R145). That
the border and the background come from registers $20 and $21 is the spec's own decision (D21; log 18). -/
def Obligations.PixelLayersInPriority : Prop :=
  ∀ (p : Config.VideoParams) (s : State) (fx fy : Nat),
    (¬ (40 ≤ fx ∧ fx < 360 ∧ 40 ≤ fy ∧ fy < 240) → (pixelColour p s fx fy).toNat = s.vic[0x20].toNat % 16) ∧
    (40 ≤ fx → fx < 360 → 40 ≤ fy → fy < 240 →
      (pixelColour p s fx fy).toNat =
        match firstOpaque p s (fx - 40) (fy - 40) with
        | some i => (s.vic[0x27 + i.val]'(by omega)).toNat % 16
        | none => if charBit s (fx - 40) (fy - 40) = true then p.fgColor.toNat else s.vic[0x21].toNat % 16)

/-- The character layer: the glyph byte of the screen code at $0400 + 40*row + col, from CHAR_ROM at code*8 + line,
bit 7 leftmost (R144). -/
def Obligations.CharacterLayerReadsCharRom : Prop :=
  ∀ (s : State) (cx cy : Nat), cx < 320 → cy < 200 →
    charBit s cx cy =
      (Config.charRom (BitVec.ofNat 12
        ((ramAt s (BitVec.ofNat 16 (0x0400 + 40 * (cy / 8) + cx / 8))).toNat * 8 + cy % 8))).getLsbD (7 - cx % 8)

/-- The sprite layer: the pixel of sprite i at (cx, cy) is opaque exactly when the sprite is enabled, (cx, cy) lies in
its 24×21 box, whose corner is the 9-bit X and the Y register against the origin, and the bitmap bit is set in the
byte pointer*64 + row*3 + col/8, the pointer being the byte at $07F8 + i, bit 7 leftmost (R145). -/
def Obligations.SpriteLayerReadsItsBitmap : Prop :=
  ∀ (p : Config.VideoParams) (s : State) (i : Fin 8) (cx cy : Nat),
    spriteBit p s i cx cy = true ↔ s.vic[0x15].getLsbD i.val = true ∧ ∃ col row : Nat, col < 24 ∧ row < 21 ∧
      256 * (s.vic[0x10].getLsbD i.val).toNat + (s.vic[2 * i.val]'(by omega)).toNat + col = cx + p.spriteX0 ∧
      (s.vic[2 * i.val + 1]'(by omega)).toNat + row = cy + p.spriteY0 ∧
      (ramAt s (BitVec.ofNat 16 (64 * (ramAt s (BitVec.ofNat 16 (0x07F8 + i.val))).toNat + 3 * row + col / 8))).getLsbD
        (7 - col % 8) = true

/-- The VideoChip never reads $D030: what render paints does not depend on the draws (R147). -/
def Obligations.RenderIndependentOfDraws : Prop :=
  ∀ (p : Config.VideoParams) (n d : Nat) (s : State),
    render p n { s with draws := d } = { render p n s with draws := d }
end

