-- ==== Sys2Proof/Laws/Memory.lean ====
section
/-! SUPPORT. Laws of the sparse arrays: read after write, the canonical form, and their forms for RAM and the
frame buffers. -/

namespace Sys2Proof.Machine

variable {α : Type} [DecidableEq α] {d : α} {bound lo k j : Nat} {v : α} {l : List (Nat × α)}

/-- The canonical form of a nonempty list, as a conjunction. -/
theorem sparseWf_cons {w : α} :
    sparseWf d bound lo ((k, w) :: l) = true ↔ lo ≤ k ∧ k < bound ∧ w ≠ d ∧ sparseWf d bound (k + 1) l = true := by
  simp [sparseWf, and_assoc]

/-- A canonical form from a higher key up is one from a lower key up. -/
theorem sparseWf_mono {lo' : Nat} (h : sparseWf d bound lo l = true) (hle : lo' ≤ lo) :
    sparseWf d bound lo' l = true := by
  cases l with
  | nil => rfl
  | cons e l =>
    obtain ⟨k, w⟩ := e
    rw [sparseWf_cons] at h ⊢
    exact ⟨by omega, h.2⟩

/-- Nothing is listed below the lowest key. -/
theorem sparseGet_below (h : sparseWf d bound lo l = true) (hk : k < lo) : sparseGet d l k = d := by
  induction l generalizing lo with
  | nil => rfl
  | cons e l ih =>
    obtain ⟨j, w⟩ := e
    rw [sparseWf_cons] at h
    rw [sparseGet, if_neg (by omega)]
    exact ih h.2.2.2 (by omega)

/-- A write leaves every other key alone. -/
theorem sparseGet_put_other (h : j ≠ k) : sparseGet d (sparsePut d l k v) j = sparseGet d l j := by
  induction l with
  | nil => by_cases hv : v = d <;> simp [sparsePut, sparseGet, hv, Ne.symm h]
  | cons e l ih =>
    obtain ⟨i, w⟩ := e
    simp only [sparsePut]
    split
    · split
      · rfl
      · simp [sparseGet, Ne.symm h]
    · split
      · next hki =>
        subst hki
        split <;> simp [sparseGet, Ne.symm h]
      · simp only [sparseGet]
        split
        · rfl
        · exact ih

/-- A read after a write of the same key answers the value written. -/
theorem sparseGet_put_same (h : sparseWf d bound lo l = true) : sparseGet d (sparsePut d l k v) k = v := by
  induction l generalizing lo with
  | nil => by_cases hv : v = d <;> simp [sparsePut, sparseGet, hv]
  | cons e l ih =>
    obtain ⟨i, w⟩ := e
    rw [sparseWf_cons] at h
    simp only [sparsePut]
    split
    · split
      · next hki hv =>
        rw [sparseGet, if_neg (by omega), hv]
        exact sparseGet_below h.2.2.2 (by omega)
      · simp [sparseGet]
    · split
      · next hki =>
        split
        · next hv =>
          rw [hv]
          exact sparseGet_below h.2.2.2 (by omega)
        · simp [sparseGet]
      · next hki =>
        rw [sparseGet, if_neg (fun he => hki he.symm)]
        exact ih h.2.2.2

/-- A write keeps the canonical form. -/
theorem sparsePut_wf (h : sparseWf d bound lo l = true) (hlo : lo ≤ k) (hk : k < bound) :
    sparseWf d bound lo (sparsePut d l k v) = true := by
  induction l generalizing lo with
  | nil => by_cases hv : v = d <;> simp [sparsePut, sparseWf, hv, hlo, hk]
  | cons e l ih =>
    obtain ⟨i, w⟩ := e
    have h' := h
    rw [sparseWf_cons] at h
    obtain ⟨h1, h2, h3, h4⟩ := h
    simp only [sparsePut]
    split
    · split
      · exact h'
      · next hki hv => simp only [sparseWf_cons]; exact ⟨hlo, hk, hv, by omega, h2, h3, h4⟩
    · split
      · next hki =>
        split
        · exact sparseWf_mono h4 (by omega)
        · next hv => rw [sparseWf_cons]; exact ⟨hlo, hk, hv, hki ▸ h4⟩
      · rw [sparseWf_cons]
        exact ⟨h1, h2, h3, ih h4 (by omega)⟩

/-- Reading a RAM cell just written. -/
theorem Memory.read_write_same {m : Memory} (h : m.wf = true) (a : Addr) (v : Byte) :
    (m.write a v).read a = v := sparseGet_put_same h

/-- Reading another RAM cell than the one written. -/
theorem Memory.read_write_other (m : Memory) {a b : Addr} (v : Byte) (h : b ≠ a) :
    (m.write a v).read b = m.read b :=
  sparseGet_put_other (fun he => h (BitVec.eq_of_toNat_eq he))

/-- A RAM write keeps the canonical form. -/
theorem Memory.write_wf {m : Memory} (h : m.wf = true) (a : Addr) (v : Byte) : (m.write a v).wf = true :=
  sparsePut_wf h (Nat.zero_le _) a.isLt

/-- RAM built from a list is canonical. -/
theorem Memory.ofList_wf (cells : List (Addr × Byte)) : (Memory.ofList cells).wf = true := by
  have key : ∀ (m : Memory), m.wf = true →
      (cells.foldl (fun m c => Memory.write m c.1 c.2) m).wf = true := by
    induction cells with
    | nil => exact fun m h => h
    | cons c cells ih => exact fun m h => ih _ (Memory.write_wf h c.1 c.2)
  exact key [] rfl

/-- Painting a pixel of the buffer keeps the canonical form. -/
theorem FrameBuffer.paint_wf {f : FrameBuffer} (h : f.wf = true) {fx fy : Nat} (hx : fx < 400) (hy : fy < 280)
    (p : Rgba) : (f.paint fx fy p).wf = true :=
  sparsePut_wf h (Nat.zero_le _) (by omega)

/-- Reading the pixel just painted. -/
theorem FrameBuffer.pixel_paint_same {f : FrameBuffer} (h : f.wf = true) (fx fy : Nat) (p : Rgba) :
    (f.paint fx fy p).pixel fx fy = p := sparseGet_put_same h

/-- Reading another pixel than the one painted. -/
theorem FrameBuffer.pixel_paint_other (f : FrameBuffer) {fx fy gx gy : Nat} (p : Rgba) (hx : fx < 400)
    (hg : gx < 400) (h : ¬ (gx = fx ∧ gy = fy)) : (f.paint fx fy p).pixel gx gy = f.pixel gx gy :=
  sparseGet_put_other (by omega)

/-- A frame built from a list is canonical. -/
theorem FrameBuffer.ofList_wf (ps : List (Fin 112000 × Rgba)) : (FrameBuffer.ofList ps).wf = true := by
  have key : ∀ (f : FrameBuffer), f.wf = true →
      FrameBuffer.wf (ps.foldl (fun f p => sparsePut unpaintedPixel f p.1.val p.2) f) = true := by
    induction ps with
    | nil => exact fun f h => h
    | cons c ps ih => exact fun f h => ih _ (sparsePut_wf h (Nat.zero_le _) c.1.isLt)
  exact key [] rfl

/-- RAM from a list of cells holds, at each address, the last cell listed for it. -/
theorem Memory.read_ofList (cells : List (Addr × Byte)) (a : Addr) :
    (Memory.ofList cells).read a =
      match cells.reverse.find? (fun c => c.1 = a) with
      | some c => c.2
      | none => unwrittenByte := by
  induction cells using List.reverseRecOn with
  | nil => rfl
  | append_singleton l c ih =>
    have hl : Memory.ofList (l ++ [c]) = (Memory.ofList l).write c.1 c.2 := by simp [Memory.ofList]
    rw [hl, List.reverse_append, List.reverse_singleton, List.singleton_append, List.find?_cons]
    by_cases h : c.1 = a
    · subst h
      rw [Memory.read_write_same (Memory.ofList_wf l)]
      simp
    · rw [Memory.read_write_other _ _ (Ne.symm h), ih]
      simp [h]

/-- A frame buffer from a list of pixels holds, at each position, the last pixel listed for it. -/
theorem FrameBuffer.pixel_ofList (ps : List (Fin 112000 × Rgba)) (fx fy : Nat) :
    (FrameBuffer.ofList ps).pixel fx fy =
      match ps.reverse.find? (fun e => e.1.val = fy * 400 + fx) with
      | some e => e.2
      | none => unpaintedPixel := by
  induction ps using List.reverseRecOn with
  | nil => rfl
  | append_singleton l e ih =>
    have hl : FrameBuffer.ofList (l ++ [e]) = sparsePut unpaintedPixel (FrameBuffer.ofList l) e.1.val e.2 := by
      simp [FrameBuffer.ofList]
    rw [hl, List.reverse_append, List.reverse_singleton, List.singleton_append, List.find?_cons]
    by_cases h : e.1.val = fy * 400 + fx
    · simp only [FrameBuffer.pixel, ← h, sparseGet_put_same (FrameBuffer.ofList_wf l), decide_true]
    · have h2 : ¬ fy * 400 + fx = e.1.val := fun q => h q.symm
      simp only [FrameBuffer.pixel, sparseGet_put_other h2, h, decide_false]
      exact ih

/-- The four bytes of a pixel in the row-major image (R27). -/
theorem FrameBuffer.byte_pixel (f : FrameBuffer) (fx fy : Nat) :
    f.byte (4 * (fy * 400 + fx)) = (f.pixel fx fy).r ∧ f.byte (4 * (fy * 400 + fx) + 1) = (f.pixel fx fy).g ∧
    f.byte (4 * (fy * 400 + fx) + 2) = (f.pixel fx fy).b ∧ f.byte (4 * (fy * 400 + fx) + 3) = (f.pixel fx fy).alpha := by
  have h (k : Nat) (hk : k < 4) : (4 * (fy * 400 + fx) + k) / 4 = fy * 400 + fx ∧
      (4 * (fy * 400 + fx) + k) % 4 = k := by omega
  refine ⟨?_, ?_, ?_, ?_⟩
  · have := h 0 (by omega)
    simp only [Nat.add_zero] at this
    simp only [FrameBuffer.byte, FrameBuffer.pixel, this.1, this.2]
  · simp only [FrameBuffer.byte, FrameBuffer.pixel, (h 1 (by omega)).1, (h 1 (by omega)).2]
  · simp only [FrameBuffer.byte, FrameBuffer.pixel, (h 2 (by omega)).1, (h 2 (by omega)).2]
  · simp only [FrameBuffer.byte, FrameBuffer.pixel, (h 3 (by omega)).1, (h 3 (by omega)).2]

end Sys2Proof.Machine
end

