-- ==== Sys2Proof/Laws/State.lean ====
section
/-! SUPPORT. One lemma per field per update of State, each true by rfl. -/

namespace Sys2Proof.Machine

@[simp] theorem State.setPc_pc (s : State) (v : Addr) : (s.setPc v).pc = v := rfl
@[simp] theorem State.setPc_sp (s : State) (v : Addr) : (s.setPc v).sp = s.sp := rfl
@[simp] theorem State.setPc_a (s : State) (v : Addr) : (s.setPc v).a = s.a := rfl
@[simp] theorem State.setPc_x (s : State) (v : Addr) : (s.setPc v).x = s.x := rfl
@[simp] theorem State.setPc_y (s : State) (v : Addr) : (s.setPc v).y = s.y := rfl
@[simp] theorem State.setPc_flags (s : State) (v : Addr) : (s.setPc v).flags = s.flags := rfl
@[simp] theorem State.setPc_cyc (s : State) (v : Addr) : (s.setPc v).cyc = s.cyc := rfl
@[simp] theorem State.setPc_faultLog (s : State) (v : Addr) : (s.setPc v).faultLog = s.faultLog := rfl
@[simp] theorem State.setPc_ram (s : State) (v : Addr) : (s.setPc v).ram = s.ram := rfl
@[simp] theorem State.setPc_vic (s : State) (v : Addr) : (s.setPc v).vic = s.vic := rfl
@[simp] theorem State.setPc_rx (s : State) (v : Addr) : (s.setPc v).rx = s.rx := rfl
@[simp] theorem State.setPc_ry (s : State) (v : Addr) : (s.setPc v).ry = s.ry := rfl
@[simp] theorem State.setPc_front (s : State) (v : Addr) : (s.setPc v).front = s.front := rfl
@[simp] theorem State.setPc_back (s : State) (v : Addr) : (s.setPc v).back = s.back := rfl
@[simp] theorem State.setPc_draws (s : State) (v : Addr) : (s.setPc v).draws = s.draws := rfl
@[simp] theorem State.setPc_cycleTable (s : State) (v : Addr) : (s.setPc v).cycleTable = s.cycleTable := rfl

@[simp] theorem State.setSp_pc (s : State) (v : Byte) : (s.setSp v).pc = s.pc := rfl
@[simp] theorem State.setSp_sp (s : State) (v : Byte) : (s.setSp v).sp = v := rfl
@[simp] theorem State.setSp_a (s : State) (v : Byte) : (s.setSp v).a = s.a := rfl
@[simp] theorem State.setSp_x (s : State) (v : Byte) : (s.setSp v).x = s.x := rfl
@[simp] theorem State.setSp_y (s : State) (v : Byte) : (s.setSp v).y = s.y := rfl
@[simp] theorem State.setSp_flags (s : State) (v : Byte) : (s.setSp v).flags = s.flags := rfl
@[simp] theorem State.setSp_cyc (s : State) (v : Byte) : (s.setSp v).cyc = s.cyc := rfl
@[simp] theorem State.setSp_faultLog (s : State) (v : Byte) : (s.setSp v).faultLog = s.faultLog := rfl
@[simp] theorem State.setSp_ram (s : State) (v : Byte) : (s.setSp v).ram = s.ram := rfl
@[simp] theorem State.setSp_vic (s : State) (v : Byte) : (s.setSp v).vic = s.vic := rfl
@[simp] theorem State.setSp_rx (s : State) (v : Byte) : (s.setSp v).rx = s.rx := rfl
@[simp] theorem State.setSp_ry (s : State) (v : Byte) : (s.setSp v).ry = s.ry := rfl
@[simp] theorem State.setSp_front (s : State) (v : Byte) : (s.setSp v).front = s.front := rfl
@[simp] theorem State.setSp_back (s : State) (v : Byte) : (s.setSp v).back = s.back := rfl
@[simp] theorem State.setSp_draws (s : State) (v : Byte) : (s.setSp v).draws = s.draws := rfl
@[simp] theorem State.setSp_cycleTable (s : State) (v : Byte) : (s.setSp v).cycleTable = s.cycleTable := rfl

@[simp] theorem State.setA_pc (s : State) (v : Byte) : (s.setA v).pc = s.pc := rfl
@[simp] theorem State.setA_sp (s : State) (v : Byte) : (s.setA v).sp = s.sp := rfl
@[simp] theorem State.setA_a (s : State) (v : Byte) : (s.setA v).a = v := rfl
@[simp] theorem State.setA_x (s : State) (v : Byte) : (s.setA v).x = s.x := rfl
@[simp] theorem State.setA_y (s : State) (v : Byte) : (s.setA v).y = s.y := rfl
@[simp] theorem State.setA_flags (s : State) (v : Byte) : (s.setA v).flags = s.flags := rfl
@[simp] theorem State.setA_cyc (s : State) (v : Byte) : (s.setA v).cyc = s.cyc := rfl
@[simp] theorem State.setA_faultLog (s : State) (v : Byte) : (s.setA v).faultLog = s.faultLog := rfl
@[simp] theorem State.setA_ram (s : State) (v : Byte) : (s.setA v).ram = s.ram := rfl
@[simp] theorem State.setA_vic (s : State) (v : Byte) : (s.setA v).vic = s.vic := rfl
@[simp] theorem State.setA_rx (s : State) (v : Byte) : (s.setA v).rx = s.rx := rfl
@[simp] theorem State.setA_ry (s : State) (v : Byte) : (s.setA v).ry = s.ry := rfl
@[simp] theorem State.setA_front (s : State) (v : Byte) : (s.setA v).front = s.front := rfl
@[simp] theorem State.setA_back (s : State) (v : Byte) : (s.setA v).back = s.back := rfl
@[simp] theorem State.setA_draws (s : State) (v : Byte) : (s.setA v).draws = s.draws := rfl
@[simp] theorem State.setA_cycleTable (s : State) (v : Byte) : (s.setA v).cycleTable = s.cycleTable := rfl

@[simp] theorem State.setX_pc (s : State) (v : Byte) : (s.setX v).pc = s.pc := rfl
@[simp] theorem State.setX_sp (s : State) (v : Byte) : (s.setX v).sp = s.sp := rfl
@[simp] theorem State.setX_a (s : State) (v : Byte) : (s.setX v).a = s.a := rfl
@[simp] theorem State.setX_x (s : State) (v : Byte) : (s.setX v).x = v := rfl
@[simp] theorem State.setX_y (s : State) (v : Byte) : (s.setX v).y = s.y := rfl
@[simp] theorem State.setX_flags (s : State) (v : Byte) : (s.setX v).flags = s.flags := rfl
@[simp] theorem State.setX_cyc (s : State) (v : Byte) : (s.setX v).cyc = s.cyc := rfl
@[simp] theorem State.setX_faultLog (s : State) (v : Byte) : (s.setX v).faultLog = s.faultLog := rfl
@[simp] theorem State.setX_ram (s : State) (v : Byte) : (s.setX v).ram = s.ram := rfl
@[simp] theorem State.setX_vic (s : State) (v : Byte) : (s.setX v).vic = s.vic := rfl
@[simp] theorem State.setX_rx (s : State) (v : Byte) : (s.setX v).rx = s.rx := rfl
@[simp] theorem State.setX_ry (s : State) (v : Byte) : (s.setX v).ry = s.ry := rfl
@[simp] theorem State.setX_front (s : State) (v : Byte) : (s.setX v).front = s.front := rfl
@[simp] theorem State.setX_back (s : State) (v : Byte) : (s.setX v).back = s.back := rfl
@[simp] theorem State.setX_draws (s : State) (v : Byte) : (s.setX v).draws = s.draws := rfl
@[simp] theorem State.setX_cycleTable (s : State) (v : Byte) : (s.setX v).cycleTable = s.cycleTable := rfl

@[simp] theorem State.setY_pc (s : State) (v : Byte) : (s.setY v).pc = s.pc := rfl
@[simp] theorem State.setY_sp (s : State) (v : Byte) : (s.setY v).sp = s.sp := rfl
@[simp] theorem State.setY_a (s : State) (v : Byte) : (s.setY v).a = s.a := rfl
@[simp] theorem State.setY_x (s : State) (v : Byte) : (s.setY v).x = s.x := rfl
@[simp] theorem State.setY_y (s : State) (v : Byte) : (s.setY v).y = v := rfl
@[simp] theorem State.setY_flags (s : State) (v : Byte) : (s.setY v).flags = s.flags := rfl
@[simp] theorem State.setY_cyc (s : State) (v : Byte) : (s.setY v).cyc = s.cyc := rfl
@[simp] theorem State.setY_faultLog (s : State) (v : Byte) : (s.setY v).faultLog = s.faultLog := rfl
@[simp] theorem State.setY_ram (s : State) (v : Byte) : (s.setY v).ram = s.ram := rfl
@[simp] theorem State.setY_vic (s : State) (v : Byte) : (s.setY v).vic = s.vic := rfl
@[simp] theorem State.setY_rx (s : State) (v : Byte) : (s.setY v).rx = s.rx := rfl
@[simp] theorem State.setY_ry (s : State) (v : Byte) : (s.setY v).ry = s.ry := rfl
@[simp] theorem State.setY_front (s : State) (v : Byte) : (s.setY v).front = s.front := rfl
@[simp] theorem State.setY_back (s : State) (v : Byte) : (s.setY v).back = s.back := rfl
@[simp] theorem State.setY_draws (s : State) (v : Byte) : (s.setY v).draws = s.draws := rfl
@[simp] theorem State.setY_cycleTable (s : State) (v : Byte) : (s.setY v).cycleTable = s.cycleTable := rfl

@[simp] theorem State.setFlags_pc (s : State) (v : Flags) : (s.setFlags v).pc = s.pc := rfl
@[simp] theorem State.setFlags_sp (s : State) (v : Flags) : (s.setFlags v).sp = s.sp := rfl
@[simp] theorem State.setFlags_a (s : State) (v : Flags) : (s.setFlags v).a = s.a := rfl
@[simp] theorem State.setFlags_x (s : State) (v : Flags) : (s.setFlags v).x = s.x := rfl
@[simp] theorem State.setFlags_y (s : State) (v : Flags) : (s.setFlags v).y = s.y := rfl
@[simp] theorem State.setFlags_flags (s : State) (v : Flags) : (s.setFlags v).flags = v := rfl
@[simp] theorem State.setFlags_cyc (s : State) (v : Flags) : (s.setFlags v).cyc = s.cyc := rfl
@[simp] theorem State.setFlags_faultLog (s : State) (v : Flags) : (s.setFlags v).faultLog = s.faultLog := rfl
@[simp] theorem State.setFlags_ram (s : State) (v : Flags) : (s.setFlags v).ram = s.ram := rfl
@[simp] theorem State.setFlags_vic (s : State) (v : Flags) : (s.setFlags v).vic = s.vic := rfl
@[simp] theorem State.setFlags_rx (s : State) (v : Flags) : (s.setFlags v).rx = s.rx := rfl
@[simp] theorem State.setFlags_ry (s : State) (v : Flags) : (s.setFlags v).ry = s.ry := rfl
@[simp] theorem State.setFlags_front (s : State) (v : Flags) : (s.setFlags v).front = s.front := rfl
@[simp] theorem State.setFlags_back (s : State) (v : Flags) : (s.setFlags v).back = s.back := rfl
@[simp] theorem State.setFlags_draws (s : State) (v : Flags) : (s.setFlags v).draws = s.draws := rfl
@[simp] theorem State.setFlags_cycleTable (s : State) (v : Flags) : (s.setFlags v).cycleTable = s.cycleTable := rfl

@[simp] theorem State.addCycles_pc (s : State) (v : Nat) : (s.addCycles v).pc = s.pc := rfl
@[simp] theorem State.addCycles_sp (s : State) (v : Nat) : (s.addCycles v).sp = s.sp := rfl
@[simp] theorem State.addCycles_a (s : State) (v : Nat) : (s.addCycles v).a = s.a := rfl
@[simp] theorem State.addCycles_x (s : State) (v : Nat) : (s.addCycles v).x = s.x := rfl
@[simp] theorem State.addCycles_y (s : State) (v : Nat) : (s.addCycles v).y = s.y := rfl
@[simp] theorem State.addCycles_flags (s : State) (v : Nat) : (s.addCycles v).flags = s.flags := rfl
@[simp] theorem State.addCycles_cyc (s : State) (v : Nat) : (s.addCycles v).cyc = s.cyc + v := rfl
@[simp] theorem State.addCycles_faultLog (s : State) (v : Nat) : (s.addCycles v).faultLog = s.faultLog := rfl
@[simp] theorem State.addCycles_ram (s : State) (v : Nat) : (s.addCycles v).ram = s.ram := rfl
@[simp] theorem State.addCycles_vic (s : State) (v : Nat) : (s.addCycles v).vic = s.vic := rfl
@[simp] theorem State.addCycles_rx (s : State) (v : Nat) : (s.addCycles v).rx = s.rx := rfl
@[simp] theorem State.addCycles_ry (s : State) (v : Nat) : (s.addCycles v).ry = s.ry := rfl
@[simp] theorem State.addCycles_front (s : State) (v : Nat) : (s.addCycles v).front = s.front := rfl
@[simp] theorem State.addCycles_back (s : State) (v : Nat) : (s.addCycles v).back = s.back := rfl
@[simp] theorem State.addCycles_draws (s : State) (v : Nat) : (s.addCycles v).draws = s.draws := rfl
@[simp] theorem State.addCycles_cycleTable (s : State) (v : Nat) : (s.addCycles v).cycleTable = s.cycleTable := rfl

@[simp] theorem State.setRam_pc (s : State) (v : Memory) : (s.setRam v).pc = s.pc := rfl
@[simp] theorem State.setRam_sp (s : State) (v : Memory) : (s.setRam v).sp = s.sp := rfl
@[simp] theorem State.setRam_a (s : State) (v : Memory) : (s.setRam v).a = s.a := rfl
@[simp] theorem State.setRam_x (s : State) (v : Memory) : (s.setRam v).x = s.x := rfl
@[simp] theorem State.setRam_y (s : State) (v : Memory) : (s.setRam v).y = s.y := rfl
@[simp] theorem State.setRam_flags (s : State) (v : Memory) : (s.setRam v).flags = s.flags := rfl
@[simp] theorem State.setRam_cyc (s : State) (v : Memory) : (s.setRam v).cyc = s.cyc := rfl
@[simp] theorem State.setRam_faultLog (s : State) (v : Memory) : (s.setRam v).faultLog = s.faultLog := rfl
@[simp] theorem State.setRam_ram (s : State) (v : Memory) : (s.setRam v).ram = v := rfl
@[simp] theorem State.setRam_vic (s : State) (v : Memory) : (s.setRam v).vic = s.vic := rfl
@[simp] theorem State.setRam_rx (s : State) (v : Memory) : (s.setRam v).rx = s.rx := rfl
@[simp] theorem State.setRam_ry (s : State) (v : Memory) : (s.setRam v).ry = s.ry := rfl
@[simp] theorem State.setRam_front (s : State) (v : Memory) : (s.setRam v).front = s.front := rfl
@[simp] theorem State.setRam_back (s : State) (v : Memory) : (s.setRam v).back = s.back := rfl
@[simp] theorem State.setRam_draws (s : State) (v : Memory) : (s.setRam v).draws = s.draws := rfl
@[simp] theorem State.setRam_cycleTable (s : State) (v : Memory) : (s.setRam v).cycleTable = s.cycleTable := rfl

@[simp] theorem State.setVic_pc (s : State) (v : Vector Byte 48) : (s.setVic v).pc = s.pc := rfl
@[simp] theorem State.setVic_sp (s : State) (v : Vector Byte 48) : (s.setVic v).sp = s.sp := rfl
@[simp] theorem State.setVic_a (s : State) (v : Vector Byte 48) : (s.setVic v).a = s.a := rfl
@[simp] theorem State.setVic_x (s : State) (v : Vector Byte 48) : (s.setVic v).x = s.x := rfl
@[simp] theorem State.setVic_y (s : State) (v : Vector Byte 48) : (s.setVic v).y = s.y := rfl
@[simp] theorem State.setVic_flags (s : State) (v : Vector Byte 48) : (s.setVic v).flags = s.flags := rfl
@[simp] theorem State.setVic_cyc (s : State) (v : Vector Byte 48) : (s.setVic v).cyc = s.cyc := rfl
@[simp] theorem State.setVic_faultLog (s : State) (v : Vector Byte 48) : (s.setVic v).faultLog = s.faultLog := rfl
@[simp] theorem State.setVic_ram (s : State) (v : Vector Byte 48) : (s.setVic v).ram = s.ram := rfl
@[simp] theorem State.setVic_vic (s : State) (v : Vector Byte 48) : (s.setVic v).vic = v := rfl
@[simp] theorem State.setVic_rx (s : State) (v : Vector Byte 48) : (s.setVic v).rx = s.rx := rfl
@[simp] theorem State.setVic_ry (s : State) (v : Vector Byte 48) : (s.setVic v).ry = s.ry := rfl
@[simp] theorem State.setVic_front (s : State) (v : Vector Byte 48) : (s.setVic v).front = s.front := rfl
@[simp] theorem State.setVic_back (s : State) (v : Vector Byte 48) : (s.setVic v).back = s.back := rfl
@[simp] theorem State.setVic_draws (s : State) (v : Vector Byte 48) : (s.setVic v).draws = s.draws := rfl
@[simp] theorem State.setVic_cycleTable (s : State) (v : Vector Byte 48) : (s.setVic v).cycleTable = s.cycleTable := rfl

@[simp] theorem State.logFault_pc (s : State) (v : Fault) : (s.logFault v).pc = s.pc := rfl
@[simp] theorem State.logFault_sp (s : State) (v : Fault) : (s.logFault v).sp = s.sp := rfl
@[simp] theorem State.logFault_a (s : State) (v : Fault) : (s.logFault v).a = s.a := rfl
@[simp] theorem State.logFault_x (s : State) (v : Fault) : (s.logFault v).x = s.x := rfl
@[simp] theorem State.logFault_y (s : State) (v : Fault) : (s.logFault v).y = s.y := rfl
@[simp] theorem State.logFault_flags (s : State) (v : Fault) : (s.logFault v).flags = s.flags := rfl
@[simp] theorem State.logFault_cyc (s : State) (v : Fault) : (s.logFault v).cyc = s.cyc := rfl
@[simp] theorem State.logFault_faultLog (s : State) (v : Fault) : (s.logFault v).faultLog = s.faultLog ++ [v] := rfl
@[simp] theorem State.logFault_ram (s : State) (v : Fault) : (s.logFault v).ram = s.ram := rfl
@[simp] theorem State.logFault_vic (s : State) (v : Fault) : (s.logFault v).vic = s.vic := rfl
@[simp] theorem State.logFault_rx (s : State) (v : Fault) : (s.logFault v).rx = s.rx := rfl
@[simp] theorem State.logFault_ry (s : State) (v : Fault) : (s.logFault v).ry = s.ry := rfl
@[simp] theorem State.logFault_front (s : State) (v : Fault) : (s.logFault v).front = s.front := rfl
@[simp] theorem State.logFault_back (s : State) (v : Fault) : (s.logFault v).back = s.back := rfl
@[simp] theorem State.logFault_draws (s : State) (v : Fault) : (s.logFault v).draws = s.draws := rfl
@[simp] theorem State.logFault_cycleTable (s : State) (v : Fault) : (s.logFault v).cycleTable = s.cycleTable := rfl

@[simp] theorem State.countDraw_pc (s : State) : (s.countDraw).pc = s.pc := rfl
@[simp] theorem State.countDraw_sp (s : State) : (s.countDraw).sp = s.sp := rfl
@[simp] theorem State.countDraw_a (s : State) : (s.countDraw).a = s.a := rfl
@[simp] theorem State.countDraw_x (s : State) : (s.countDraw).x = s.x := rfl
@[simp] theorem State.countDraw_y (s : State) : (s.countDraw).y = s.y := rfl
@[simp] theorem State.countDraw_flags (s : State) : (s.countDraw).flags = s.flags := rfl
@[simp] theorem State.countDraw_cyc (s : State) : (s.countDraw).cyc = s.cyc := rfl
@[simp] theorem State.countDraw_faultLog (s : State) : (s.countDraw).faultLog = s.faultLog := rfl
@[simp] theorem State.countDraw_ram (s : State) : (s.countDraw).ram = s.ram := rfl
@[simp] theorem State.countDraw_vic (s : State) : (s.countDraw).vic = s.vic := rfl
@[simp] theorem State.countDraw_rx (s : State) : (s.countDraw).rx = s.rx := rfl
@[simp] theorem State.countDraw_ry (s : State) : (s.countDraw).ry = s.ry := rfl
@[simp] theorem State.countDraw_front (s : State) : (s.countDraw).front = s.front := rfl
@[simp] theorem State.countDraw_back (s : State) : (s.countDraw).back = s.back := rfl
@[simp] theorem State.countDraw_draws (s : State) : (s.countDraw).draws = s.draws + 1 := rfl
@[simp] theorem State.countDraw_cycleTable (s : State) : (s.countDraw).cycleTable = s.cycleTable := rfl

@[simp] theorem State.setNZ_pc (s : State) (v : Byte) : (s.setNZ v).pc = s.pc := rfl
@[simp] theorem State.setNZ_sp (s : State) (v : Byte) : (s.setNZ v).sp = s.sp := rfl
@[simp] theorem State.setNZ_a (s : State) (v : Byte) : (s.setNZ v).a = s.a := rfl
@[simp] theorem State.setNZ_x (s : State) (v : Byte) : (s.setNZ v).x = s.x := rfl
@[simp] theorem State.setNZ_y (s : State) (v : Byte) : (s.setNZ v).y = s.y := rfl
@[simp] theorem State.setNZ_flags (s : State) (v : Byte) : (s.setNZ v).flags = s.flags.setNZ v := rfl
@[simp] theorem State.setNZ_cyc (s : State) (v : Byte) : (s.setNZ v).cyc = s.cyc := rfl
@[simp] theorem State.setNZ_faultLog (s : State) (v : Byte) : (s.setNZ v).faultLog = s.faultLog := rfl
@[simp] theorem State.setNZ_ram (s : State) (v : Byte) : (s.setNZ v).ram = s.ram := rfl
@[simp] theorem State.setNZ_vic (s : State) (v : Byte) : (s.setNZ v).vic = s.vic := rfl
@[simp] theorem State.setNZ_rx (s : State) (v : Byte) : (s.setNZ v).rx = s.rx := rfl
@[simp] theorem State.setNZ_ry (s : State) (v : Byte) : (s.setNZ v).ry = s.ry := rfl
@[simp] theorem State.setNZ_front (s : State) (v : Byte) : (s.setNZ v).front = s.front := rfl
@[simp] theorem State.setNZ_back (s : State) (v : Byte) : (s.setNZ v).back = s.back := rfl
@[simp] theorem State.setNZ_draws (s : State) (v : Byte) : (s.setNZ v).draws = s.draws := rfl
@[simp] theorem State.setNZ_cycleTable (s : State) (v : Byte) : (s.setNZ v).cycleTable = s.cycleTable := rfl

/-- The base counts depend on the table alone. -/
theorem State.baseCycles_congr {s t : State} (h : s.cycleTable = t.cycleTable) (op : Byte) :
    s.baseCycles op = t.baseCycles op := by
  rw [State.baseCycles, h, State.baseCycles]

@[simp] theorem State.setPc_baseCycles (s : State) (v : Addr) (op : Byte) :
    (s.setPc v).baseCycles op = s.baseCycles op := rfl
@[simp] theorem State.setSp_baseCycles (s : State) (v : Byte) (op : Byte) :
    (s.setSp v).baseCycles op = s.baseCycles op := rfl
@[simp] theorem State.setA_baseCycles (s : State) (v : Byte) (op : Byte) :
    (s.setA v).baseCycles op = s.baseCycles op := rfl
@[simp] theorem State.setX_baseCycles (s : State) (v : Byte) (op : Byte) :
    (s.setX v).baseCycles op = s.baseCycles op := rfl
@[simp] theorem State.setY_baseCycles (s : State) (v : Byte) (op : Byte) :
    (s.setY v).baseCycles op = s.baseCycles op := rfl
@[simp] theorem State.setFlags_baseCycles (s : State) (v : Flags) (op : Byte) :
    (s.setFlags v).baseCycles op = s.baseCycles op := rfl
@[simp] theorem State.addCycles_baseCycles (s : State) (v : Nat) (op : Byte) :
    (s.addCycles v).baseCycles op = s.baseCycles op := rfl
@[simp] theorem State.setRam_baseCycles (s : State) (v : Memory) (op : Byte) :
    (s.setRam v).baseCycles op = s.baseCycles op := rfl
@[simp] theorem State.setVic_baseCycles (s : State) (v : Vector Byte 48) (op : Byte) :
    (s.setVic v).baseCycles op = s.baseCycles op := rfl
@[simp] theorem State.setNZ_baseCycles (s : State) (v : Byte) (op : Byte) :
    (s.setNZ v).baseCycles op = s.baseCycles op := rfl

@[simp] theorem Flags.unpack_n (f : Flags) (p : Byte) : (f.unpack p).n = p.getLsbD 7 := rfl
@[simp] theorem Flags.unpack_v (f : Flags) (p : Byte) : (f.unpack p).v = p.getLsbD 6 := rfl
@[simp] theorem Flags.unpack_b (f : Flags) (p : Byte) : (f.unpack p).b = f.b := rfl
@[simp] theorem Flags.unpack_d (f : Flags) (p : Byte) : (f.unpack p).d = p.getLsbD 3 := rfl
@[simp] theorem Flags.unpack_i (f : Flags) (p : Byte) : (f.unpack p).i = p.getLsbD 2 := rfl
@[simp] theorem Flags.unpack_z (f : Flags) (p : Byte) : (f.unpack p).z = p.getLsbD 1 := rfl
@[simp] theorem Flags.unpack_c (f : Flags) (p : Byte) : (f.unpack p).c = p.getLsbD 0 := rfl
@[simp] theorem Flags.setNZ_n (f : Flags) (v : Byte) : (f.setNZ v).n = v.getLsbD 7 := rfl
@[simp] theorem Flags.setNZ_v (f : Flags) (v : Byte) : (f.setNZ v).v = f.v := rfl
@[simp] theorem Flags.setNZ_b (f : Flags) (v : Byte) : (f.setNZ v).b = f.b := rfl
@[simp] theorem Flags.setNZ_d (f : Flags) (v : Byte) : (f.setNZ v).d = f.d := rfl
@[simp] theorem Flags.setNZ_i (f : Flags) (v : Byte) : (f.setNZ v).i = f.i := rfl
@[simp] theorem Flags.setNZ_z (f : Flags) (v : Byte) : (f.setNZ v).z = decide (v = 0) := rfl
@[simp] theorem Flags.setNZ_c (f : Flags) (v : Byte) : (f.setNZ v).c = f.c := rfl

/-- Two states are equal when their fields are. -/
theorem State.ext_fields {s t : State} (hpc : s.pc = t.pc) (hsp : s.sp = t.sp) (ha : s.a = t.a) (hx : s.x = t.x)
    (hy : s.y = t.y) (hf : s.flags = t.flags) (hc : s.cyc = t.cyc) (hl : s.faultLog = t.faultLog) (hm : s.ram = t.ram)
    (hv : s.vic = t.vic) (hrx : s.rx = t.rx) (hry : s.ry = t.ry) (hfr : s.front = t.front) (hb : s.back = t.back)
    (hd : s.draws = t.draws) (ht : s.cycleTable = t.cycleTable) : s = t := by
  cases s
  cases t
  simp_all

end Sys2Proof.Machine
end

