-- ==== Sys2Proof/Laws/Ops.lean ====
section
/-! SUPPORT. What the shared operations of Machine/Ops.lean do, said once: which region serves an address, what a
write changes, where the stack lies, and the trap and the return from it. -/

namespace Sys2Proof.Machine

/-! ### Bytes and addresses -/

theorem hiLo_getLsbD (hi lo : Byte) (i : Nat) :
    (hiLo hi lo).getLsbD i = if i < 8 then lo.getLsbD i else hi.getLsbD (i - 8) :=
  BitVec.getLsbD_append

theorem hiByte_getLsbD (a : Addr) (i : Nat) (h : i < 8) : (hiByte a).getLsbD i = a.getLsbD (8 + i) := by
  simp only [hiByte, BitVec.getLsbD_extractLsb', h, decide_true, Bool.true_and]

theorem loByte_getLsbD (a : Addr) (i : Nat) (h : i < 8) : (loByte a).getLsbD i = a.getLsbD i := by
  simp only [loByte, BitVec.getLsbD_setWidth, h, decide_true, Bool.true_and]

@[simp] theorem hiByte_hiLo (hi lo : Byte) : hiByte (hiLo hi lo) = hi := by
  apply BitVec.eq_of_getLsbD_eq
  intro i h
  rw [hiByte_getLsbD _ _ h, hiLo_getLsbD, if_neg (by omega), Nat.add_sub_cancel_left]

@[simp] theorem loByte_hiLo (hi lo : Byte) : loByte (hiLo hi lo) = lo := by
  apply BitVec.eq_of_getLsbD_eq
  intro i h
  rw [loByte_getLsbD _ _ h, hiLo_getLsbD, if_pos h]

@[simp] theorem hiLo_hiByte_loByte (a : Addr) : hiLo (hiByte a) (loByte a) = a := by
  apply BitVec.eq_of_getLsbD_eq
  intro i h
  rw [hiLo_getLsbD]
  split
  · next hi => exact loByte_getLsbD a i hi
  · next hi => rw [hiByte_getLsbD _ _ (by omega), show 8 + (i - 8) = i by omega]

theorem hiLo_toNat (hi lo : Byte) : (hiLo hi lo).toNat = hi.toNat * 256 + lo.toNat := by
  have h := lo.isLt
  simp only [hiLo, BitVec.toNat_append]
  rw [Nat.shiftLeft_eq, ← Nat.shiftLeft_eq, ← Nat.shiftLeft_add_eq_or_of_lt h, Nat.shiftLeft_eq]

theorem stackAddr_toNat (sp : Byte) : (stackAddr sp).toNat = 0x0100 + sp.toNat := by
  simp [stackAddr, hiLo_toNat]

/-- Two stack positions are one address only for one stack pointer. -/
theorem stackAddr_inj {p q : Byte} : stackAddr p = stackAddr q ↔ p = q := by
  constructor
  · intro h
    have := congrArg loByte h
    simpa [stackAddr] using this
  · exact fun h => h ▸ rfl

/-! ### The address decoder -/

theorem region_vicWindow {a : Addr} : region a = .vicWindow ↔ InVicWindow a := by
  unfold region
  split
  · simp; omega
  · split
    · simp; omega
    · split <;> simp <;> omega

theorem region_basicRom {a : Addr} : region a = .basicRom ↔ 0xA000 ≤ a.toNat ∧ a.toNat ≤ 0xBFFF := by
  unfold region
  split
  · simp; omega
  · split
    · simp; omega
    · split <;> simp <;> omega

theorem region_kernalRom {a : Addr} : region a = .kernalRom ↔ 0xE000 ≤ a.toNat := by
  unfold region
  split
  · simp; omega
  · split
    · simp; omega
    · split <;> simp <;> omega

theorem region_ram {a : Addr} : region a = .ram ↔
    a.toNat < 0xA000 ∨ (0xC000 ≤ a.toNat ∧ a.toNat < 0xD000) ∨ (0xD031 ≤ a.toNat ∧ a.toNat < 0xE000) := by
  unfold region
  split
  · simp; omega
  · split
    · simp; omega
    · split
      · simp; omega
      · simp; omega

@[simp] theorem region_stackAddr (sp : Byte) : region (stackAddr sp) = .ram := by
  rw [region_ram, stackAddr_toNat]
  omega

theorem region_low {a : Addr} (h : a.toNat < 0xA000) : region a = .ram := region_ram.mpr (Or.inl h)

/-- A read of RAM. -/
theorem busRead_ram {s : State} {a : Addr} (h : region a = .ram) : busRead s a = ramAt s a := by
  simp [busRead, h]

@[simp] theorem busRead_stackAddr (s : State) (sp : Byte) : busRead s (stackAddr sp) = ramAt s (stackAddr sp) :=
  busRead_ram (region_stackAddr sp)

/-- What a read answers depends on RAM, the register file and the draw number only. -/
theorem busRead_congr {s t : State} (hr : t.ram = s.ram) (hv : t.vic = s.vic) (hd : t.draws = s.draws) (a : Addr) :
    busRead t a = busRead s a := by
  simp [busRead, vicRead, ramAt, hr, hv, hd]

/-- A read anywhere but $D030 depends on RAM and the register file only. -/
theorem busRead_congr_of_ne {s t : State} {a : Addr} (hr : t.ram = s.ram) (hv : t.vic = s.vic) (h : a ≠ 0xD030) :
    busRead t a = busRead s a := by
  unfold busRead
  split
  · next hw =>
    obtain ⟨h1, h2⟩ := region_vicWindow.mp hw
    have h3 : a.toNat ≠ 0xD030 := fun e => h (BitVec.eq_of_toNat_eq e)
    have hlt : vicOffset a < 48 := by
      unfold vicOffset
      omega
    simp [vicRead, hlt, hv]
  · rfl
  · rfl
  · simp [ramAt, hr]

/-! ### Reads and writes -/

/-- A read changes the draw counter at most. -/
theorem afterRead_eq (s : State) (a : Addr) : afterRead s a = { s with draws := s.draws + drawsAt a } := by
  simp only [afterRead, drawsAt]
  split <;> rfl

/-- RAM after a write. -/
def ramAfter (s : State) (a : Addr) (v : Byte) : Memory :=
  if region a = .vicWindow then s.ram else s.ram.write a v

/-- The register file after a write. -/
def vicAfter (s : State) (a : Addr) (v : Byte) : Vector Byte 48 :=
  if region a = .vicWindow then (vicWrite s (vicOffset a) v).vic else s.vic

/-- A write changes RAM or the register file and nothing else. -/
theorem busWrite_eq (s : State) (a : Addr) (v : Byte) :
    busWrite s a v = { s with ram := ramAfter s a v, vic := vicAfter s a v } := by
  unfold busWrite
  split
  · next h =>
    simp only [ramAfter, vicAfter, h, if_true]
    unfold vicWrite
    split <;> rfl
  · next h =>
    have h' : region a ≠ .vicWindow := h
    simp [ramAfter, vicAfter, h', State.setRam]

@[simp] theorem busWrite_pc (s : State) (a : Addr) (v : Byte) : (busWrite s a v).pc = s.pc := by rw [busWrite_eq]
@[simp] theorem busWrite_sp (s : State) (a : Addr) (v : Byte) : (busWrite s a v).sp = s.sp := by rw [busWrite_eq]
@[simp] theorem busWrite_a (s : State) (a : Addr) (v : Byte) : (busWrite s a v).a = s.a := by rw [busWrite_eq]
@[simp] theorem busWrite_x (s : State) (a : Addr) (v : Byte) : (busWrite s a v).x = s.x := by rw [busWrite_eq]
@[simp] theorem busWrite_y (s : State) (a : Addr) (v : Byte) : (busWrite s a v).y = s.y := by rw [busWrite_eq]
@[simp] theorem busWrite_flags (s : State) (a : Addr) (v : Byte) : (busWrite s a v).flags = s.flags := by rw [busWrite_eq]
@[simp] theorem busWrite_cyc (s : State) (a : Addr) (v : Byte) : (busWrite s a v).cyc = s.cyc := by rw [busWrite_eq]
@[simp] theorem busWrite_faultLog (s : State) (a : Addr) (v : Byte) : (busWrite s a v).faultLog = s.faultLog := by rw [busWrite_eq]
@[simp] theorem busWrite_rx (s : State) (a : Addr) (v : Byte) : (busWrite s a v).rx = s.rx := by rw [busWrite_eq]
@[simp] theorem busWrite_ry (s : State) (a : Addr) (v : Byte) : (busWrite s a v).ry = s.ry := by rw [busWrite_eq]
@[simp] theorem busWrite_front (s : State) (a : Addr) (v : Byte) : (busWrite s a v).front = s.front := by rw [busWrite_eq]
@[simp] theorem busWrite_back (s : State) (a : Addr) (v : Byte) : (busWrite s a v).back = s.back := by rw [busWrite_eq]
@[simp] theorem busWrite_draws (s : State) (a : Addr) (v : Byte) : (busWrite s a v).draws = s.draws := by rw [busWrite_eq]
@[simp] theorem busWrite_cycleTable (s : State) (a : Addr) (v : Byte) : (busWrite s a v).cycleTable = s.cycleTable := by
  rw [busWrite_eq]
@[simp] theorem afterRead_pc (s : State) (a : Addr) : (afterRead s a).pc = s.pc := by rw [afterRead_eq]
@[simp] theorem afterRead_sp (s : State) (a : Addr) : (afterRead s a).sp = s.sp := by rw [afterRead_eq]
@[simp] theorem afterRead_a (s : State) (a : Addr) : (afterRead s a).a = s.a := by rw [afterRead_eq]
@[simp] theorem afterRead_x (s : State) (a : Addr) : (afterRead s a).x = s.x := by rw [afterRead_eq]
@[simp] theorem afterRead_y (s : State) (a : Addr) : (afterRead s a).y = s.y := by rw [afterRead_eq]
@[simp] theorem afterRead_flags (s : State) (a : Addr) : (afterRead s a).flags = s.flags := by rw [afterRead_eq]
@[simp] theorem afterRead_cyc (s : State) (a : Addr) : (afterRead s a).cyc = s.cyc := by rw [afterRead_eq]
@[simp] theorem afterRead_faultLog (s : State) (a : Addr) : (afterRead s a).faultLog = s.faultLog := by rw [afterRead_eq]
@[simp] theorem afterRead_ram (s : State) (a : Addr) : (afterRead s a).ram = s.ram := by rw [afterRead_eq]
@[simp] theorem afterRead_vic (s : State) (a : Addr) : (afterRead s a).vic = s.vic := by rw [afterRead_eq]
@[simp] theorem afterRead_rx (s : State) (a : Addr) : (afterRead s a).rx = s.rx := by rw [afterRead_eq]
@[simp] theorem afterRead_ry (s : State) (a : Addr) : (afterRead s a).ry = s.ry := by rw [afterRead_eq]
@[simp] theorem afterRead_front (s : State) (a : Addr) : (afterRead s a).front = s.front := by rw [afterRead_eq]
@[simp] theorem afterRead_back (s : State) (a : Addr) : (afterRead s a).back = s.back := by rw [afterRead_eq]
@[simp] theorem afterRead_cycleTable (s : State) (a : Addr) : (afterRead s a).cycleTable = s.cycleTable := by
  rw [afterRead_eq]
@[simp] theorem busWrite_baseCycles (s : State) (a : Addr) (v op : Byte) :
    (busWrite s a v).baseCycles op = s.baseCycles op :=
  State.baseCycles_congr (busWrite_cycleTable s a v) op
@[simp] theorem afterRead_baseCycles (s : State) (a : Addr) (op : Byte) :
    (afterRead s a).baseCycles op = s.baseCycles op :=
  State.baseCycles_congr (afterRead_cycleTable s a) op
@[simp] theorem afterRead_draws (s : State) (a : Addr) : (afterRead s a).draws = s.draws + drawsAt a := by
  rw [afterRead_eq]

@[simp] theorem ramAt_afterRead (s : State) (a b : Addr) : ramAt (afterRead s a) b = ramAt s b := by
  simp only [ramAt, afterRead_ram]

/-- Register `k` is named by one address of the window. -/
theorem vicOffset_eq {a : Addr} {k : Nat} (h : InVicWindow a) : vicOffset a = k ↔ a.toNat = 0xD000 + k := by
  obtain ⟨h1, h2⟩ := h
  unfold vicOffset
  omega

/-- The register file after a write, register by register. -/
theorem vicAfter_getElem (s : State) (a : Addr) (v : Byte) (k : Nat) (hk : k < 48) :
    (vicAfter s a v)[k] = if a.toNat = 0xD000 + k then v else s.vic[k] := by
  by_cases hw : InVicWindow a
  · by_cases hlt : vicOffset a < 48
    · have e : vicAfter s a v = s.vic.set (vicOffset a) v hlt := by
        simp [vicAfter, region_vicWindow.mpr hw, vicWrite, hlt]
      simp only [e, Vector.getElem_set, vicOffset_eq hw]
    · have e : vicAfter s a v = s.vic := by
        simp [vicAfter, region_vicWindow.mpr hw, vicWrite, hlt]
      have hne : ¬ a.toNat = 0xD000 + k := fun he => hlt (by rw [(vicOffset_eq hw).mpr he]; exact hk)
      simp only [e, hne, if_false]
  · have hr : region a ≠ .vicWindow := fun he => hw (region_vicWindow.mp he)
    have e : vicAfter s a v = s.vic := by simp [vicAfter, hr]
    have hne : ¬ a.toNat = 0xD000 + k := by omega
    simp only [e, hne, if_false]

/-- A write stores its byte and nothing else, said through the reads of one byte. -/
theorem busWrite_stored {s : State} (h : s.ram.wf = true) (a : Addr) (v : Byte) :
    StoredByte s (busWrite s a v) a v := by
  rw [busWrite_eq]
  refine ⟨fun b => ?_, fun k hk => ?_⟩
  · by_cases hw : InVicWindow a
    · simp [ramAt, ramAfter, region_vicWindow.mpr hw, hw.1, hw.2]
    · have hr : region a ≠ .vicWindow := fun he => hw (region_vicWindow.mp he)
      simp only [ramAt, ramAfter, hr, if_false]
      by_cases hb : b = a
      · subst hb
        simp only [hw, not_false_eq_true, and_self, if_true]
        exact Memory.read_write_same h b v
      · simp only [hb, false_and, if_false]
        exact Memory.read_write_other s.ram v hb
  · exact vicAfter_getElem s a v k hk

/-- A write keeps RAM's canonical form. -/
theorem busWrite_ram_wf {s : State} (h : s.ram.wf = true) (a : Addr) (v : Byte) : (busWrite s a v).ram.wf = true := by
  rw [busWrite_eq]
  simp only [ramAfter]
  split
  · exact h
  · exact Memory.write_wf h a v

/-- A read of RAM after a write. -/
theorem ramAt_busWrite {s : State} (h : s.ram.wf = true) (a b : Addr) (v : Byte) :
    ramAt (busWrite s a v) b = if b = a ∧ ¬ InVicWindow a then v else ramAt s b :=
  (busWrite_stored h a v).1 b

/-- A write to RAM leaves the register file alone. -/
theorem busWrite_vic_of_ram {s : State} {a : Addr} (h : ¬ InVicWindow a) (v : Byte) : (busWrite s a v).vic = s.vic := by
  rw [busWrite_eq]
  simp only [vicAfter, if_neg (fun he => h (region_vicWindow.mp he))]

theorem not_inVicWindow_stackAddr (sp : Byte) : ¬ InVicWindow (stackAddr sp) := by
  intro h
  have := stackAddr_toNat sp
  have := h.1
  omega

/-! ### The stack -/

/-- A push changes RAM and SP only. -/
theorem push_eq (v : Byte) (s : State) :
    push v s = { s with ram := s.ram.write (stackAddr s.sp) v, sp := s.sp - 1 } := by
  simp [push, busWrite, State.setRam, State.setSp]

/-- A pull changes SP only. -/
theorem afterPull_eq (s : State) : afterPull s = { s with sp := s.sp + 1 } := rfl

/-- The byte a pull answers. -/
theorem pulled_eq (s : State) : pulled s = s.ram.read (stackAddr (s.sp + 1)) := by
  simp [pulled, ramAt]

/-- Two pushes, high byte first. -/
theorem pushAddr_eq (v : Addr) (s : State) :
    pushAddr v s = { s with ram := (s.ram.write (stackAddr s.sp) (hiByte v)).write (stackAddr (s.sp - 1)) (loByte v),
                            sp := s.sp - 1 - 1 } := by
  simp [pushAddr, push_eq]

/-- Two pulls. -/
theorem pulledAddr_eq (s : State) : pulledAddr s =
    hiLo (s.ram.read (stackAddr (s.sp + 1 + 1))) (s.ram.read (stackAddr (s.sp + 1))) := by
  simp [pulledAddr, pulled_eq, afterPull_eq]

/-- Two pulls move SP up by two. -/
theorem afterPullAddr_eq (s : State) : afterPullAddr s = { s with sp := s.sp + 1 + 1 } := rfl

/-! ### The trap -/

/-- Trap entry: three pushed bytes, B and I set, PC from the KERNAL ROM's vector bytes. -/
theorem takeTrap_eq (ret : Addr) (s : State) :
    takeTrap ret s = { s with
      ram := ((s.ram.write (stackAddr s.sp) (hiByte ret)).write (stackAddr (s.sp - 1)) (loByte ret)).write
        (stackAddr (s.sp - 1 - 1)) s.flags.pack
      sp := s.sp - 1 - 1 - 1
      flags := { s.flags with b := true, i := true }
      pc := hiLo (Config.kernalRom 0x1FFF) (Config.kernalRom 0x1FFE) } := by
  have h1 : region (0xFFFE + 1 : Addr) = .kernalRom := by decide
  have h2 : region (0xFFFE : Addr) = .kernalRom := by decide
  simp only [takeTrap, push_eq, pushAddr_eq, State.setFlags, State.setPc, read16, busRead, trapVector, h1, h2]
  rfl

/-- Trap return: the status byte, then PC low and PC high. -/
theorem returnFromTrap_eq (s : State) :
    returnFromTrap s = { s with
      sp := s.sp + 1 + 1 + 1
      flags := s.flags.unpack (s.ram.read (stackAddr (s.sp + 1)))
      pc := hiLo (s.ram.read (stackAddr (s.sp + 1 + 1 + 1))) (s.ram.read (stackAddr (s.sp + 1 + 1))) } := by
  simp [returnFromTrap, pulledAddr_eq, afterPullAddr_eq, afterPull_eq, pulled_eq, State.setFlags, State.setPc]

/-- A pulled status byte that was packed restores every flag. -/
@[simp] theorem Flags.unpack_pack (f : Flags) : f.unpack f.pack = f := by
  rcases f with ⟨n, v, b, d, i, z, c⟩
  cases n <;> cases v <;> cases b <;> cases d <;> cases i <;> cases z <;> cases c <;> decide

end Sys2Proof.Machine
end

