-- ==== Sys2Proof/Laws/PerInstr.lean ====
section
/-! SUPPORT. Lemmas made per instruction: the opcode map's row under each instruction's opcode byte is that
instruction's row, and the encoder gives it the length of its mode (R49, R50, R55, R56). -/

namespace Sys2Proof.Laws.TableRow

/-- The map's row for the opcode has the instruction's mnemonic and mode, the mode is listed under the mnemonic, and the
encoding has the mode's length. -/
def Statement (i : Instr) : Prop :=
  (lookup i.opcode).map (fun r => (r.opcode, r.mnemonic, r.mode)) = some (i.opcode, i.mnemonic, i.mode) ∧
  i.wellFormed = true ∧ (encode i).length = i.length

theorem adcImm (v : Byte) : Statement (.adcImm v) := ⟨rfl, rfl, rfl⟩
theorem adcZp (z : Byte) : Statement (.adcZp z) := ⟨rfl, rfl, rfl⟩
theorem adcZpx (z : Byte) : Statement (.adcZpx z) := ⟨rfl, rfl, rfl⟩
theorem adcAbs (adr : Addr) : Statement (.adcAbs adr) := ⟨rfl, rfl, rfl⟩
theorem adcAbx (adr : Addr) : Statement (.adcAbx adr) := ⟨rfl, rfl, rfl⟩
theorem adcAby (adr : Addr) : Statement (.adcAby adr) := ⟨rfl, rfl, rfl⟩
theorem adcIzx (z : Byte) : Statement (.adcIzx z) := ⟨rfl, rfl, rfl⟩
theorem adcIzy (z : Byte) : Statement (.adcIzy z) := ⟨rfl, rfl, rfl⟩
theorem andImm (v : Byte) : Statement (.andImm v) := ⟨rfl, rfl, rfl⟩
theorem andZp (z : Byte) : Statement (.andZp z) := ⟨rfl, rfl, rfl⟩
theorem andZpx (z : Byte) : Statement (.andZpx z) := ⟨rfl, rfl, rfl⟩
theorem andAbs (adr : Addr) : Statement (.andAbs adr) := ⟨rfl, rfl, rfl⟩
theorem andAbx (adr : Addr) : Statement (.andAbx adr) := ⟨rfl, rfl, rfl⟩
theorem andAby (adr : Addr) : Statement (.andAby adr) := ⟨rfl, rfl, rfl⟩
theorem andIzx (z : Byte) : Statement (.andIzx z) := ⟨rfl, rfl, rfl⟩
theorem andIzy (z : Byte) : Statement (.andIzy z) := ⟨rfl, rfl, rfl⟩
theorem aslAcc : Statement (.aslAcc) := ⟨rfl, rfl, rfl⟩
theorem aslZp (z : Byte) : Statement (.aslZp z) := ⟨rfl, rfl, rfl⟩
theorem aslZpx (z : Byte) : Statement (.aslZpx z) := ⟨rfl, rfl, rfl⟩
theorem aslAbs (adr : Addr) : Statement (.aslAbs adr) := ⟨rfl, rfl, rfl⟩
theorem aslAbx (adr : Addr) : Statement (.aslAbx adr) := ⟨rfl, rfl, rfl⟩
theorem bcc (off : Byte) : Statement (.bcc off) := ⟨rfl, rfl, rfl⟩
theorem bcs (off : Byte) : Statement (.bcs off) := ⟨rfl, rfl, rfl⟩
theorem beq (off : Byte) : Statement (.beq off) := ⟨rfl, rfl, rfl⟩
theorem bitZp (z : Byte) : Statement (.bitZp z) := ⟨rfl, rfl, rfl⟩
theorem bitAbs (adr : Addr) : Statement (.bitAbs adr) := ⟨rfl, rfl, rfl⟩
theorem bmi (off : Byte) : Statement (.bmi off) := ⟨rfl, rfl, rfl⟩
theorem bne (off : Byte) : Statement (.bne off) := ⟨rfl, rfl, rfl⟩
theorem bpl (off : Byte) : Statement (.bpl off) := ⟨rfl, rfl, rfl⟩
theorem brk : Statement (.brk) := ⟨rfl, rfl, rfl⟩
theorem bvc (off : Byte) : Statement (.bvc off) := ⟨rfl, rfl, rfl⟩
theorem bvs (off : Byte) : Statement (.bvs off) := ⟨rfl, rfl, rfl⟩
theorem clc : Statement (.clc) := ⟨rfl, rfl, rfl⟩
theorem cld : Statement (.cld) := ⟨rfl, rfl, rfl⟩
theorem cli : Statement (.cli) := ⟨rfl, rfl, rfl⟩
theorem clv : Statement (.clv) := ⟨rfl, rfl, rfl⟩
theorem cmpImm (v : Byte) : Statement (.cmpImm v) := ⟨rfl, rfl, rfl⟩
theorem cmpZp (z : Byte) : Statement (.cmpZp z) := ⟨rfl, rfl, rfl⟩
theorem cmpZpx (z : Byte) : Statement (.cmpZpx z) := ⟨rfl, rfl, rfl⟩
theorem cmpAbs (adr : Addr) : Statement (.cmpAbs adr) := ⟨rfl, rfl, rfl⟩
theorem cmpAbx (adr : Addr) : Statement (.cmpAbx adr) := ⟨rfl, rfl, rfl⟩
theorem cmpAby (adr : Addr) : Statement (.cmpAby adr) := ⟨rfl, rfl, rfl⟩
theorem cmpIzx (z : Byte) : Statement (.cmpIzx z) := ⟨rfl, rfl, rfl⟩
theorem cmpIzy (z : Byte) : Statement (.cmpIzy z) := ⟨rfl, rfl, rfl⟩
theorem cpxImm (v : Byte) : Statement (.cpxImm v) := ⟨rfl, rfl, rfl⟩
theorem cpxZp (z : Byte) : Statement (.cpxZp z) := ⟨rfl, rfl, rfl⟩
theorem cpxAbs (adr : Addr) : Statement (.cpxAbs adr) := ⟨rfl, rfl, rfl⟩
theorem cpyImm (v : Byte) : Statement (.cpyImm v) := ⟨rfl, rfl, rfl⟩
theorem cpyZp (z : Byte) : Statement (.cpyZp z) := ⟨rfl, rfl, rfl⟩
theorem cpyAbs (adr : Addr) : Statement (.cpyAbs adr) := ⟨rfl, rfl, rfl⟩
theorem decZp (z : Byte) : Statement (.decZp z) := ⟨rfl, rfl, rfl⟩
theorem decZpx (z : Byte) : Statement (.decZpx z) := ⟨rfl, rfl, rfl⟩
theorem decAbs (adr : Addr) : Statement (.decAbs adr) := ⟨rfl, rfl, rfl⟩
theorem decAbx (adr : Addr) : Statement (.decAbx adr) := ⟨rfl, rfl, rfl⟩
theorem dex : Statement (.dex) := ⟨rfl, rfl, rfl⟩
theorem dey : Statement (.dey) := ⟨rfl, rfl, rfl⟩
theorem eorImm (v : Byte) : Statement (.eorImm v) := ⟨rfl, rfl, rfl⟩
theorem eorZp (z : Byte) : Statement (.eorZp z) := ⟨rfl, rfl, rfl⟩
theorem eorZpx (z : Byte) : Statement (.eorZpx z) := ⟨rfl, rfl, rfl⟩
theorem eorAbs (adr : Addr) : Statement (.eorAbs adr) := ⟨rfl, rfl, rfl⟩
theorem eorAbx (adr : Addr) : Statement (.eorAbx adr) := ⟨rfl, rfl, rfl⟩
theorem eorAby (adr : Addr) : Statement (.eorAby adr) := ⟨rfl, rfl, rfl⟩
theorem eorIzx (z : Byte) : Statement (.eorIzx z) := ⟨rfl, rfl, rfl⟩
theorem eorIzy (z : Byte) : Statement (.eorIzy z) := ⟨rfl, rfl, rfl⟩
theorem incZp (z : Byte) : Statement (.incZp z) := ⟨rfl, rfl, rfl⟩
theorem incZpx (z : Byte) : Statement (.incZpx z) := ⟨rfl, rfl, rfl⟩
theorem incAbs (adr : Addr) : Statement (.incAbs adr) := ⟨rfl, rfl, rfl⟩
theorem incAbx (adr : Addr) : Statement (.incAbx adr) := ⟨rfl, rfl, rfl⟩
theorem inx : Statement (.inx) := ⟨rfl, rfl, rfl⟩
theorem iny : Statement (.iny) := ⟨rfl, rfl, rfl⟩
theorem jmpAbs (adr : Addr) : Statement (.jmpAbs adr) := ⟨rfl, rfl, rfl⟩
theorem jmpInd (adr : Addr) : Statement (.jmpInd adr) := ⟨rfl, rfl, rfl⟩
theorem jsr (adr : Addr) : Statement (.jsr adr) := ⟨rfl, rfl, rfl⟩
theorem ldaImm (v : Byte) : Statement (.ldaImm v) := ⟨rfl, rfl, rfl⟩
theorem ldaZp (z : Byte) : Statement (.ldaZp z) := ⟨rfl, rfl, rfl⟩
theorem ldaZpx (z : Byte) : Statement (.ldaZpx z) := ⟨rfl, rfl, rfl⟩
theorem ldaAbs (adr : Addr) : Statement (.ldaAbs adr) := ⟨rfl, rfl, rfl⟩
theorem ldaAbx (adr : Addr) : Statement (.ldaAbx adr) := ⟨rfl, rfl, rfl⟩
theorem ldaAby (adr : Addr) : Statement (.ldaAby adr) := ⟨rfl, rfl, rfl⟩
theorem ldaIzx (z : Byte) : Statement (.ldaIzx z) := ⟨rfl, rfl, rfl⟩
theorem ldaIzy (z : Byte) : Statement (.ldaIzy z) := ⟨rfl, rfl, rfl⟩
theorem ldxImm (v : Byte) : Statement (.ldxImm v) := ⟨rfl, rfl, rfl⟩
theorem ldxZp (z : Byte) : Statement (.ldxZp z) := ⟨rfl, rfl, rfl⟩
theorem ldxZpy (z : Byte) : Statement (.ldxZpy z) := ⟨rfl, rfl, rfl⟩
theorem ldxAbs (adr : Addr) : Statement (.ldxAbs adr) := ⟨rfl, rfl, rfl⟩
theorem ldxAby (adr : Addr) : Statement (.ldxAby adr) := ⟨rfl, rfl, rfl⟩
theorem ldyImm (v : Byte) : Statement (.ldyImm v) := ⟨rfl, rfl, rfl⟩
theorem ldyZp (z : Byte) : Statement (.ldyZp z) := ⟨rfl, rfl, rfl⟩
theorem ldyZpx (z : Byte) : Statement (.ldyZpx z) := ⟨rfl, rfl, rfl⟩
theorem ldyAbs (adr : Addr) : Statement (.ldyAbs adr) := ⟨rfl, rfl, rfl⟩
theorem ldyAbx (adr : Addr) : Statement (.ldyAbx adr) := ⟨rfl, rfl, rfl⟩
theorem lsrAcc : Statement (.lsrAcc) := ⟨rfl, rfl, rfl⟩
theorem lsrZp (z : Byte) : Statement (.lsrZp z) := ⟨rfl, rfl, rfl⟩
theorem lsrZpx (z : Byte) : Statement (.lsrZpx z) := ⟨rfl, rfl, rfl⟩
theorem lsrAbs (adr : Addr) : Statement (.lsrAbs adr) := ⟨rfl, rfl, rfl⟩
theorem lsrAbx (adr : Addr) : Statement (.lsrAbx adr) := ⟨rfl, rfl, rfl⟩
theorem nop : Statement (.nop) := ⟨rfl, rfl, rfl⟩
theorem oraImm (v : Byte) : Statement (.oraImm v) := ⟨rfl, rfl, rfl⟩
theorem oraZp (z : Byte) : Statement (.oraZp z) := ⟨rfl, rfl, rfl⟩
theorem oraZpx (z : Byte) : Statement (.oraZpx z) := ⟨rfl, rfl, rfl⟩
theorem oraAbs (adr : Addr) : Statement (.oraAbs adr) := ⟨rfl, rfl, rfl⟩
theorem oraAbx (adr : Addr) : Statement (.oraAbx adr) := ⟨rfl, rfl, rfl⟩
theorem oraAby (adr : Addr) : Statement (.oraAby adr) := ⟨rfl, rfl, rfl⟩
theorem oraIzx (z : Byte) : Statement (.oraIzx z) := ⟨rfl, rfl, rfl⟩
theorem oraIzy (z : Byte) : Statement (.oraIzy z) := ⟨rfl, rfl, rfl⟩
theorem pha : Statement (.pha) := ⟨rfl, rfl, rfl⟩
theorem php : Statement (.php) := ⟨rfl, rfl, rfl⟩
theorem pla : Statement (.pla) := ⟨rfl, rfl, rfl⟩
theorem plp : Statement (.plp) := ⟨rfl, rfl, rfl⟩
theorem rolAcc : Statement (.rolAcc) := ⟨rfl, rfl, rfl⟩
theorem rolZp (z : Byte) : Statement (.rolZp z) := ⟨rfl, rfl, rfl⟩
theorem rolZpx (z : Byte) : Statement (.rolZpx z) := ⟨rfl, rfl, rfl⟩
theorem rolAbs (adr : Addr) : Statement (.rolAbs adr) := ⟨rfl, rfl, rfl⟩
theorem rolAbx (adr : Addr) : Statement (.rolAbx adr) := ⟨rfl, rfl, rfl⟩
theorem rorAcc : Statement (.rorAcc) := ⟨rfl, rfl, rfl⟩
theorem rorZp (z : Byte) : Statement (.rorZp z) := ⟨rfl, rfl, rfl⟩
theorem rorZpx (z : Byte) : Statement (.rorZpx z) := ⟨rfl, rfl, rfl⟩
theorem rorAbs (adr : Addr) : Statement (.rorAbs adr) := ⟨rfl, rfl, rfl⟩
theorem rorAbx (adr : Addr) : Statement (.rorAbx adr) := ⟨rfl, rfl, rfl⟩
theorem rti : Statement (.rti) := ⟨rfl, rfl, rfl⟩
theorem rts : Statement (.rts) := ⟨rfl, rfl, rfl⟩
theorem sbcImm (v : Byte) : Statement (.sbcImm v) := ⟨rfl, rfl, rfl⟩
theorem sbcZp (z : Byte) : Statement (.sbcZp z) := ⟨rfl, rfl, rfl⟩
theorem sbcZpx (z : Byte) : Statement (.sbcZpx z) := ⟨rfl, rfl, rfl⟩
theorem sbcAbs (adr : Addr) : Statement (.sbcAbs adr) := ⟨rfl, rfl, rfl⟩
theorem sbcAbx (adr : Addr) : Statement (.sbcAbx adr) := ⟨rfl, rfl, rfl⟩
theorem sbcAby (adr : Addr) : Statement (.sbcAby adr) := ⟨rfl, rfl, rfl⟩
theorem sbcIzx (z : Byte) : Statement (.sbcIzx z) := ⟨rfl, rfl, rfl⟩
theorem sbcIzy (z : Byte) : Statement (.sbcIzy z) := ⟨rfl, rfl, rfl⟩
theorem sec : Statement (.sec) := ⟨rfl, rfl, rfl⟩
theorem sed : Statement (.sed) := ⟨rfl, rfl, rfl⟩
theorem sei : Statement (.sei) := ⟨rfl, rfl, rfl⟩
theorem staZp (z : Byte) : Statement (.staZp z) := ⟨rfl, rfl, rfl⟩
theorem staZpx (z : Byte) : Statement (.staZpx z) := ⟨rfl, rfl, rfl⟩
theorem staAbs (adr : Addr) : Statement (.staAbs adr) := ⟨rfl, rfl, rfl⟩
theorem staAbx (adr : Addr) : Statement (.staAbx adr) := ⟨rfl, rfl, rfl⟩
theorem staAby (adr : Addr) : Statement (.staAby adr) := ⟨rfl, rfl, rfl⟩
theorem staIzx (z : Byte) : Statement (.staIzx z) := ⟨rfl, rfl, rfl⟩
theorem staIzy (z : Byte) : Statement (.staIzy z) := ⟨rfl, rfl, rfl⟩
theorem stxZp (z : Byte) : Statement (.stxZp z) := ⟨rfl, rfl, rfl⟩
theorem stxZpy (z : Byte) : Statement (.stxZpy z) := ⟨rfl, rfl, rfl⟩
theorem stxAbs (adr : Addr) : Statement (.stxAbs adr) := ⟨rfl, rfl, rfl⟩
theorem styZp (z : Byte) : Statement (.styZp z) := ⟨rfl, rfl, rfl⟩
theorem styZpx (z : Byte) : Statement (.styZpx z) := ⟨rfl, rfl, rfl⟩
theorem styAbs (adr : Addr) : Statement (.styAbs adr) := ⟨rfl, rfl, rfl⟩
theorem tax : Statement (.tax) := ⟨rfl, rfl, rfl⟩
theorem tay : Statement (.tay) := ⟨rfl, rfl, rfl⟩
theorem tsx : Statement (.tsx) := ⟨rfl, rfl, rfl⟩
theorem txa : Statement (.txa) := ⟨rfl, rfl, rfl⟩
theorem txs : Statement (.txs) := ⟨rfl, rfl, rfl⟩
theorem tya : Statement (.tya) := ⟨rfl, rfl, rfl⟩

/-- The same for every instruction. -/
theorem all (i : Instr) : Statement i := by
  cases i with
  | adcImm v => exact adcImm v
  | adcZp z => exact adcZp z
  | adcZpx z => exact adcZpx z
  | adcAbs adr => exact adcAbs adr
  | adcAbx adr => exact adcAbx adr
  | adcAby adr => exact adcAby adr
  | adcIzx z => exact adcIzx z
  | adcIzy z => exact adcIzy z
  | andImm v => exact andImm v
  | andZp z => exact andZp z
  | andZpx z => exact andZpx z
  | andAbs adr => exact andAbs adr
  | andAbx adr => exact andAbx adr
  | andAby adr => exact andAby adr
  | andIzx z => exact andIzx z
  | andIzy z => exact andIzy z
  | aslAcc => exact aslAcc
  | aslZp z => exact aslZp z
  | aslZpx z => exact aslZpx z
  | aslAbs adr => exact aslAbs adr
  | aslAbx adr => exact aslAbx adr
  | bcc off => exact bcc off
  | bcs off => exact bcs off
  | beq off => exact beq off
  | bitZp z => exact bitZp z
  | bitAbs adr => exact bitAbs adr
  | bmi off => exact bmi off
  | bne off => exact bne off
  | bpl off => exact bpl off
  | brk => exact brk
  | bvc off => exact bvc off
  | bvs off => exact bvs off
  | clc => exact clc
  | cld => exact cld
  | cli => exact cli
  | clv => exact clv
  | cmpImm v => exact cmpImm v
  | cmpZp z => exact cmpZp z
  | cmpZpx z => exact cmpZpx z
  | cmpAbs adr => exact cmpAbs adr
  | cmpAbx adr => exact cmpAbx adr
  | cmpAby adr => exact cmpAby adr
  | cmpIzx z => exact cmpIzx z
  | cmpIzy z => exact cmpIzy z
  | cpxImm v => exact cpxImm v
  | cpxZp z => exact cpxZp z
  | cpxAbs adr => exact cpxAbs adr
  | cpyImm v => exact cpyImm v
  | cpyZp z => exact cpyZp z
  | cpyAbs adr => exact cpyAbs adr
  | decZp z => exact decZp z
  | decZpx z => exact decZpx z
  | decAbs adr => exact decAbs adr
  | decAbx adr => exact decAbx adr
  | dex => exact dex
  | dey => exact dey
  | eorImm v => exact eorImm v
  | eorZp z => exact eorZp z
  | eorZpx z => exact eorZpx z
  | eorAbs adr => exact eorAbs adr
  | eorAbx adr => exact eorAbx adr
  | eorAby adr => exact eorAby adr
  | eorIzx z => exact eorIzx z
  | eorIzy z => exact eorIzy z
  | incZp z => exact incZp z
  | incZpx z => exact incZpx z
  | incAbs adr => exact incAbs adr
  | incAbx adr => exact incAbx adr
  | inx => exact inx
  | iny => exact iny
  | jmpAbs adr => exact jmpAbs adr
  | jmpInd adr => exact jmpInd adr
  | jsr adr => exact jsr adr
  | ldaImm v => exact ldaImm v
  | ldaZp z => exact ldaZp z
  | ldaZpx z => exact ldaZpx z
  | ldaAbs adr => exact ldaAbs adr
  | ldaAbx adr => exact ldaAbx adr
  | ldaAby adr => exact ldaAby adr
  | ldaIzx z => exact ldaIzx z
  | ldaIzy z => exact ldaIzy z
  | ldxImm v => exact ldxImm v
  | ldxZp z => exact ldxZp z
  | ldxZpy z => exact ldxZpy z
  | ldxAbs adr => exact ldxAbs adr
  | ldxAby adr => exact ldxAby adr
  | ldyImm v => exact ldyImm v
  | ldyZp z => exact ldyZp z
  | ldyZpx z => exact ldyZpx z
  | ldyAbs adr => exact ldyAbs adr
  | ldyAbx adr => exact ldyAbx adr
  | lsrAcc => exact lsrAcc
  | lsrZp z => exact lsrZp z
  | lsrZpx z => exact lsrZpx z
  | lsrAbs adr => exact lsrAbs adr
  | lsrAbx adr => exact lsrAbx adr
  | nop => exact nop
  | oraImm v => exact oraImm v
  | oraZp z => exact oraZp z
  | oraZpx z => exact oraZpx z
  | oraAbs adr => exact oraAbs adr
  | oraAbx adr => exact oraAbx adr
  | oraAby adr => exact oraAby adr
  | oraIzx z => exact oraIzx z
  | oraIzy z => exact oraIzy z
  | pha => exact pha
  | php => exact php
  | pla => exact pla
  | plp => exact plp
  | rolAcc => exact rolAcc
  | rolZp z => exact rolZp z
  | rolZpx z => exact rolZpx z
  | rolAbs adr => exact rolAbs adr
  | rolAbx adr => exact rolAbx adr
  | rorAcc => exact rorAcc
  | rorZp z => exact rorZp z
  | rorZpx z => exact rorZpx z
  | rorAbs adr => exact rorAbs adr
  | rorAbx adr => exact rorAbx adr
  | rti => exact rti
  | rts => exact rts
  | sbcImm v => exact sbcImm v
  | sbcZp z => exact sbcZp z
  | sbcZpx z => exact sbcZpx z
  | sbcAbs adr => exact sbcAbs adr
  | sbcAbx adr => exact sbcAbx adr
  | sbcAby adr => exact sbcAby adr
  | sbcIzx z => exact sbcIzx z
  | sbcIzy z => exact sbcIzy z
  | sec => exact sec
  | sed => exact sed
  | sei => exact sei
  | staZp z => exact staZp z
  | staZpx z => exact staZpx z
  | staAbs adr => exact staAbs adr
  | staAbx adr => exact staAbx adr
  | staAby adr => exact staAby adr
  | staIzx z => exact staIzx z
  | staIzy z => exact staIzy z
  | stxZp z => exact stxZp z
  | stxZpy z => exact stxZpy z
  | stxAbs adr => exact stxAbs adr
  | styZp z => exact styZp z
  | styZpx z => exact styZpx z
  | styAbs adr => exact styAbs adr
  | tax => exact tax
  | tay => exact tay
  | tsx => exact tsx
  | txa => exact txa
  | txs => exact txs
  | tya => exact tya

end Sys2Proof.Laws.TableRow
end

