-- ==== Sys2Proof/Laws/Decode.lean ====
section
/-! SUPPORT. What a row of the opcode map says about the instructions it makes, and what a successful decoding
says about the bytes. -/

namespace Sys2Proof

/-- The map's row makes instructions whose opcode byte, operand bytes and mode are the row's. -/
def OpcodeRow.Sound (r : OpcodeRow) : Prop :=
  match r.format with
  | .f1 i => i.opcode = r.opcode ∧ i.operandBytes = [] ∧ i.mode = r.mode ∧ r.mode.length = 1
  | .f2 make => ∀ b, (make b).opcode = r.opcode ∧ (make b).operandBytes = [b] ∧ (make b).mode = r.mode ∧ r.mode.length = 2
  | .f3 make => ∀ w, (make w).opcode = r.opcode ∧ (make w).operandBytes = [loByte w, hiByte w] ∧ (make w).mode = r.mode ∧
      r.mode.length = 3

theorem opcodeRow0_sound : ∀ r ∈ opcodeRow0, r.Sound := by
  simp only [opcodeRow0, List.forall_mem_cons]
  repeat' apply And.intro
  all_goals first
    | exact fun _ => ⟨rfl, rfl, rfl, rfl⟩
    | rfl
    | exact fun _ h => absurd h List.not_mem_nil

theorem opcodeRow1_sound : ∀ r ∈ opcodeRow1, r.Sound := by
  simp only [opcodeRow1, List.forall_mem_cons]
  repeat' apply And.intro
  all_goals first
    | exact fun _ => ⟨rfl, rfl, rfl, rfl⟩
    | rfl
    | exact fun _ h => absurd h List.not_mem_nil

theorem opcodeRow2_sound : ∀ r ∈ opcodeRow2, r.Sound := by
  simp only [opcodeRow2, List.forall_mem_cons]
  repeat' apply And.intro
  all_goals first
    | exact fun _ => ⟨rfl, rfl, rfl, rfl⟩
    | rfl
    | exact fun _ h => absurd h List.not_mem_nil

theorem opcodeRow3_sound : ∀ r ∈ opcodeRow3, r.Sound := by
  simp only [opcodeRow3, List.forall_mem_cons]
  repeat' apply And.intro
  all_goals first
    | exact fun _ => ⟨rfl, rfl, rfl, rfl⟩
    | rfl
    | exact fun _ h => absurd h List.not_mem_nil

theorem opcodeRow4_sound : ∀ r ∈ opcodeRow4, r.Sound := by
  simp only [opcodeRow4, List.forall_mem_cons]
  repeat' apply And.intro
  all_goals first
    | exact fun _ => ⟨rfl, rfl, rfl, rfl⟩
    | rfl
    | exact fun _ h => absurd h List.not_mem_nil

theorem opcodeRow5_sound : ∀ r ∈ opcodeRow5, r.Sound := by
  simp only [opcodeRow5, List.forall_mem_cons]
  repeat' apply And.intro
  all_goals first
    | exact fun _ => ⟨rfl, rfl, rfl, rfl⟩
    | rfl
    | exact fun _ h => absurd h List.not_mem_nil

theorem opcodeRow6_sound : ∀ r ∈ opcodeRow6, r.Sound := by
  simp only [opcodeRow6, List.forall_mem_cons]
  repeat' apply And.intro
  all_goals first
    | exact fun _ => ⟨rfl, rfl, rfl, rfl⟩
    | rfl
    | exact fun _ h => absurd h List.not_mem_nil

theorem opcodeRow7_sound : ∀ r ∈ opcodeRow7, r.Sound := by
  simp only [opcodeRow7, List.forall_mem_cons]
  repeat' apply And.intro
  all_goals first
    | exact fun _ => ⟨rfl, rfl, rfl, rfl⟩
    | rfl
    | exact fun _ h => absurd h List.not_mem_nil

theorem opcodeRow8_sound : ∀ r ∈ opcodeRow8, r.Sound := by
  simp only [opcodeRow8, List.forall_mem_cons]
  repeat' apply And.intro
  all_goals first
    | exact fun _ => ⟨rfl, rfl, rfl, rfl⟩
    | rfl
    | exact fun _ h => absurd h List.not_mem_nil

theorem opcodeRow9_sound : ∀ r ∈ opcodeRow9, r.Sound := by
  simp only [opcodeRow9, List.forall_mem_cons]
  repeat' apply And.intro
  all_goals first
    | exact fun _ => ⟨rfl, rfl, rfl, rfl⟩
    | rfl
    | exact fun _ h => absurd h List.not_mem_nil

theorem opcodeRowA_sound : ∀ r ∈ opcodeRowA, r.Sound := by
  simp only [opcodeRowA, List.forall_mem_cons]
  repeat' apply And.intro
  all_goals first
    | exact fun _ => ⟨rfl, rfl, rfl, rfl⟩
    | rfl
    | exact fun _ h => absurd h List.not_mem_nil

theorem opcodeRowB_sound : ∀ r ∈ opcodeRowB, r.Sound := by
  simp only [opcodeRowB, List.forall_mem_cons]
  repeat' apply And.intro
  all_goals first
    | exact fun _ => ⟨rfl, rfl, rfl, rfl⟩
    | rfl
    | exact fun _ h => absurd h List.not_mem_nil

theorem opcodeRowC_sound : ∀ r ∈ opcodeRowC, r.Sound := by
  simp only [opcodeRowC, List.forall_mem_cons]
  repeat' apply And.intro
  all_goals first
    | exact fun _ => ⟨rfl, rfl, rfl, rfl⟩
    | rfl
    | exact fun _ h => absurd h List.not_mem_nil

theorem opcodeRowD_sound : ∀ r ∈ opcodeRowD, r.Sound := by
  simp only [opcodeRowD, List.forall_mem_cons]
  repeat' apply And.intro
  all_goals first
    | exact fun _ => ⟨rfl, rfl, rfl, rfl⟩
    | rfl
    | exact fun _ h => absurd h List.not_mem_nil

theorem opcodeRowE_sound : ∀ r ∈ opcodeRowE, r.Sound := by
  simp only [opcodeRowE, List.forall_mem_cons]
  repeat' apply And.intro
  all_goals first
    | exact fun _ => ⟨rfl, rfl, rfl, rfl⟩
    | rfl
    | exact fun _ h => absurd h List.not_mem_nil

theorem opcodeRowF_sound : ∀ r ∈ opcodeRowF, r.Sound := by
  simp only [opcodeRowF, List.forall_mem_cons]
  repeat' apply And.intro
  all_goals first
    | exact fun _ => ⟨rfl, rfl, rfl, rfl⟩
    | rfl
    | exact fun _ h => absurd h List.not_mem_nil

/-- Every row of the map is sound. -/
theorem opcodeMap_sound : ∀ r ∈ opcodeMap, r.Sound := by
  intro r h
  simp only [opcodeMap, List.mem_append] at h
  rcases h with (((((((((((((((h | h) | h) | h) | h) | h) | h) | h) | h) | h) | h) | h) | h) | h) | h) | h)
  · exact opcodeRow0_sound r h
  · exact opcodeRow1_sound r h
  · exact opcodeRow2_sound r h
  · exact opcodeRow3_sound r h
  · exact opcodeRow4_sound r h
  · exact opcodeRow5_sound r h
  · exact opcodeRow6_sound r h
  · exact opcodeRow7_sound r h
  · exact opcodeRow8_sound r h
  · exact opcodeRow9_sound r h
  · exact opcodeRowA_sound r h
  · exact opcodeRowB_sound r h
  · exact opcodeRowC_sound r h
  · exact opcodeRowD_sound r h
  · exact opcodeRowE_sound r h
  · exact opcodeRowF_sound r h

/-- What `lookup` finds is a row of the map, under its own opcode. -/
theorem lookup_some {op : Byte} {row : OpcodeRow} (h : lookup op = some row) : row.opcode = op ∧ row.Sound := by
  have h1 := List.find?_some h
  exact ⟨by simpa using h1, opcodeMap_sound row (List.mem_of_find?_eq_some h)⟩

/-- A table of base counts made from rows answers an opcode's row, or 0 where there is none. -/
theorem sparseGet_cycles (rows : List OpcodeRow) (op : Byte) :
    Machine.sparseGet 0 (rows.map (fun r => (r.opcode.toNat, r.cycles))) op.toNat =
      ((rows.find? (fun r => r.opcode == op)).map (fun r => r.cycles)).getD 0 := by
  induction rows with
  | nil => rfl
  | cons r rest ih =>
    simp only [List.map_cons, Machine.sparseGet, List.find?_cons]
    by_cases h : r.opcode = op
    · simp [h]
    · have h1 : ¬ r.opcode.toNat = op.toNat := fun e => h (BitVec.eq_of_toNat_eq e)
      have h2 : (r.opcode == op) = false := by simpa using h
      rw [if_neg h1, h2, ih]

/-- The default base count of an opcode is the one of its row. -/
theorem defaultCycles_eq {op : Byte} {n : Nat} (h : (lookup op).map (fun r => r.cycles) = some n) :
    Machine.sparseGet 0 defaultCycles op.toNat = n := by
  rw [defaultCycles, sparseGet_cycles]
  unfold lookup at h
  rw [h, Option.getD_some]

/-- A successful decoding found a row, whose format took the operand bytes. -/
theorem decode_ok {bytes rest : List Byte} {i : Instr} (h : decode bytes = .ok (i, rest)) :
    ∃ row, lookup i.opcode = some row ∧ bytes = i.opcode :: (i.operandBytes ++ rest) ∧ i.mode = row.mode := by
  cases bytes with
  | nil => simp [decode] at h
  | cons op bs =>
    simp only [decode] at h
    split at h
    · simp at h
    · next row hrow =>
      obtain ⟨hop, hs⟩ := lookup_some hrow
      unfold OpcodeRow.Sound at hs
      split at h
      · next hf =>
        simp only [hf] at hs
        simp only [Except.ok.injEq, Prod.mk.injEq] at h
        obtain ⟨rfl, rfl⟩ := h
        exact ⟨row, by rw [hs.1, hop]; exact hrow, by simp [hs.1, hop, hs.2.1], hs.2.2.1⟩
      · next mk b1 bs' hf =>
        simp only [hf] at hs
        simp only [Except.ok.injEq, Prod.mk.injEq] at h
        obtain ⟨rfl, rfl⟩ := h
        have hs := hs b1
        exact ⟨row, by rw [hs.1, hop]; exact hrow, by simp [hs.1, hop, hs.2.1], hs.2.2.1⟩
      · next mk lo hi bs' hf =>
        simp only [hf] at hs
        simp only [Except.ok.injEq, Prod.mk.injEq] at h
        obtain ⟨rfl, rfl⟩ := h
        have hs := hs (hiLo hi lo)
        refine ⟨row, by rw [hs.1, hop]; exact hrow, ?_, hs.2.2.1⟩
        simp [hs.1, hop, hs.2.1, Machine.loByte_hiLo, Machine.hiByte_hiLo]
      · simp at h

/-- The fetch takes as many bytes as the instruction is long. -/
theorem fetchLength_opcode (i : Instr) : fetchLength i.opcode = i.length := by
  have h := (Laws.TableRow.all i).1
  simp only [Option.map_eq_some_iff] at h
  obtain ⟨row, hrow, he⟩ := h
  simp only [Prod.mk.injEq] at he
  simp [fetchLength, hrow, he.2.2, Instr.length]

/-- An instruction is 1, 2 or 3 bytes long (R49). -/
theorem length_cases (i : Instr) : i.length = 1 ∨ i.length = 2 ∨ i.length = 3 := by
  unfold Instr.length
  cases i.mode <;> simp [Mode.length]

end Sys2Proof
end

