-- ==== Sys2Proof/Laws/Exec.lean ====
section
/-! SUPPORT. One equation per shared operation of the instruction families: the state it leaves, every changed field
named. The fields not named are the old ones. -/

namespace Sys2Proof.Machine

/-- Reading a source uses up draws and changes nothing else. -/
theorem Source.consume_eq (o : Source) (s : State) : o.consume s = { s with draws := s.draws + drawsBy o s } := by
  cases o with
  | imm v => rfl
  | mem m => exact afterRead_eq s (m.ea s)

theorem loadA_eq (o : Source) (base : Nat) (s : State) : loadA o base s = { s with
    a := o.value s, flags := s.flags.setNZ (o.value s), cyc := s.cyc + (base + o.extra s),
    draws := s.draws + drawsBy o s } := by
  simp [loadA, Source.consume_eq, State.setA, State.setNZ, State.setFlags, State.addCycles]

theorem loadX_eq (o : Source) (base : Nat) (s : State) : loadX o base s = { s with
    x := o.value s, flags := s.flags.setNZ (o.value s), cyc := s.cyc + (base + o.extra s),
    draws := s.draws + drawsBy o s } := by
  simp [loadX, Source.consume_eq, State.setX, State.setNZ, State.setFlags, State.addCycles]

theorem loadY_eq (o : Source) (base : Nat) (s : State) : loadY o base s = { s with
    y := o.value s, flags := s.flags.setNZ (o.value s), cyc := s.cyc + (base + o.extra s),
    draws := s.draws + drawsBy o s } := by
  simp [loadY, Source.consume_eq, State.setY, State.setNZ, State.setFlags, State.addCycles]

theorem store_eq (o : MemOperand) (v : Byte) (base : Nat) (s : State) : store o v base s = { s with
    ram := ramAfter s (o.ea s) v, vic := vicAfter s (o.ea s) v, cyc := s.cyc + base } := by
  simp [store, busWrite_eq, State.addCycles]

theorem addWithCarry_eq (o : Source) (base : Nat) (s : State) : addWithCarry o base s = { s with
    a := (adc s.flags s.a (o.value s)).r, flags := s.flags.setArith (adc s.flags s.a (o.value s)),
    cyc := s.cyc + (base + o.extra s), draws := s.draws + drawsBy o s } := by
  simp [addWithCarry, Source.consume_eq, State.setA, State.setFlags, State.addCycles]

theorem subWithBorrow_eq (o : Source) (base : Nat) (s : State) : subWithBorrow o base s = { s with
    a := (sbc s.flags s.a (o.value s)).r, flags := s.flags.setArith (sbc s.flags s.a (o.value s)),
    cyc := s.cyc + (base + o.extra s), draws := s.draws + drawsBy o s } := by
  simp [subWithBorrow, Source.consume_eq, State.setA, State.setFlags, State.addCycles]

theorem logic_eq (f : Byte → Byte → Byte) (o : Source) (base : Nat) (s : State) : logic f o base s = { s with
    a := f s.a (o.value s), flags := s.flags.setNZ (f s.a (o.value s)),
    cyc := s.cyc + (base + o.extra s), draws := s.draws + drawsBy o s } := by
  simp [logic, Source.consume_eq, State.setA, State.setNZ, State.setFlags, State.addCycles]

theorem testBits_eq (o : Source) (base : Nat) (s : State) : testBits o base s = { s with
    flags := s.flags.bitTest s.a (o.value s), cyc := s.cyc + (base + o.extra s), draws := s.draws + drawsBy o s } := by
  simp [testBits, Source.consume_eq, State.setFlags, State.addCycles]

theorem compareWith_eq (r : Byte) (o : Source) (base : Nat) (s : State) : compareWith r o base s = { s with
    flags := s.flags.compare r (o.value s), cyc := s.cyc + (base + o.extra s), draws := s.draws + drawsBy o s } := by
  simp [compareWith, Source.consume_eq, State.setFlags, State.addCycles]

/-- RAM after a write does not depend on the draws. -/
theorem ramAfter_afterRead (s : State) (b a : Addr) (v : Byte) : ramAfter (afterRead s b) a v = ramAfter s a v := by
  rw [afterRead_eq]
  rfl

/-- The register file after a write does not depend on the draws. -/
theorem vicAfter_afterRead (s : State) (b a : Addr) (v : Byte) : vicAfter (afterRead s b) a v = vicAfter s a v := by
  rw [afterRead_eq]
  unfold vicAfter vicWrite
  split
  · split <;> rfl
  · rfl

theorem addToMemory_eq (delta : Byte) (o : MemOperand) (base : Nat) (s : State) : addToMemory delta o base s = { s with
    ram := ramAfter s (o.ea s) (busRead s (o.ea s) + delta), vic := vicAfter s (o.ea s) (busRead s (o.ea s) + delta),
    flags := s.flags.setNZ (busRead s (o.ea s) + delta), cyc := s.cyc + base, draws := s.draws + drawsAt (o.ea s) } := by
  simp only [addToMemory, busWrite_eq, ramAfter_afterRead, vicAfter_afterRead]
  simp [afterRead_eq, State.setNZ, State.setFlags, State.addCycles]

/-- A shift on A. -/
theorem shift_acc_eq (f : Byte → Bool → Shifted) (base : Nat) (s : State) : shift f .acc base s = { s with
    a := (f s.a s.flags.c).r, flags := s.flags.setShift (f s.a s.flags.c), cyc := s.cyc + base } := by
  simp [shift, Target.value, Target.store, State.setA, State.setFlags, State.addCycles]

/-- A shift on memory. -/
theorem shift_mem_eq (f : Byte → Bool → Shifted) (o : MemOperand) (base : Nat) (s : State) :
    shift f (.mem o) base s = { s with
      ram := ramAfter s (o.ea s) (f (busRead s (o.ea s)) s.flags.c).r,
      vic := vicAfter s (o.ea s) (f (busRead s (o.ea s)) s.flags.c).r,
      flags := s.flags.setShift (f (busRead s (o.ea s)) s.flags.c),
      cyc := s.cyc + base, draws := s.draws + drawsAt (o.ea s) } := by
  simp only [shift, Target.value, Target.store, busWrite_eq, ramAfter_afterRead, vicAfter_afterRead]
  simp [afterRead_eq, State.setFlags, State.addCycles]

/-- A branch moves PC and counts cycles, nothing else. -/
theorem branch_eq (cond : Bool) (off : Byte) (base : Nat) (s : State) : branch cond off base s = { s with
    pc := if cond then branchTarget s.pc off else s.pc,
    cyc := s.cyc + (if cond then base + (if page s.pc = page (branchTarget s.pc off) then 1 else 2) else base) } := by
  cases cond <;> simp [branch, State.setPc, State.addCycles]

/-- RAM after a write stays canonical. -/
theorem ramAfter_wf {s : State} (h : s.ram.wf = true) (a : Addr) (v : Byte) : (ramAfter s a v).wf = true := by
  have := busWrite_ram_wf h a v
  rwa [busWrite_eq] at this

/-- A state that differs from `s` by a write at `ea`, and in fields other than RAM and the register file, has stored
one byte. -/
theorem stored_of_after {s t : State} (h : s.ram.wf = true) (ea : Addr) (v : Byte) (hr : t.ram = ramAfter s ea v)
    (hv : t.vic = vicAfter s ea v) : StoredByte s t ea v := by
  have hb := busWrite_stored h ea v
  refine ⟨fun a => ?_, fun k hk => ?_⟩
  · have h1 := hb.1 a
    rw [busWrite_eq] at h1
    simpa only [ramAt, hr] using h1
  · simp only [hv]
    exact vicAfter_getElem s ea v k hk

end Sys2Proof.Machine
end

