-- ==== Sys2Proof/Laws/Step.lean ====
section
/-! SUPPORT. The fetch in closed form, and the two ways a step goes. -/

namespace Sys2Proof.Machine

/-- Fetching one byte moves PC and may use up a draw. -/
theorem afterFetch8_eq (s : State) :
    afterFetch8 s = { s with pc := s.pc + 1, draws := s.draws + drawsAt s.pc } := by
  simp [afterFetch8, afterRead_eq, State.setPc]

/-- Two successive addresses are not both $D030. -/
theorem succ_ne_of_draw {p : Addr} (h : p = 0xD030) : p + 1 ≠ 0xD030 ∧ p + 2 ≠ 0xD030 := by
  subst h
  decide

/-- A fetch of the byte before does not change what the next addresses read. -/
theorem busRead_afterFetch8 (s : State) {a : Addr} (h : s.pc = 0xD030 → a ≠ 0xD030) :
    busRead (afterFetch8 s) a = busRead s a := by
  rw [afterFetch8_eq]
  by_cases hp : s.pc = 0xD030
  · refine busRead_congr_of_ne ?_ ?_ (h hp)
    · rfl
    · rfl
  · refine busRead_congr ?_ ?_ ?_ a
    · rfl
    · rfl
    · simp only [drawsAt, if_neg hp, Nat.add_zero]

theorem addr_add_one_one (p : Addr) : p + 1 + 1 = p + 2 := by
  rw [BitVec.add_assoc]
  rfl

theorem addr_add_two_one (p : Addr) : p + 2 + 1 = p + 3 := by
  rw [BitVec.add_assoc]
  rfl

/-- The second byte of a fetch. -/
theorem busRead_fetch_one (s : State) : busRead (afterFetch8 s) (s.pc + 1) = busRead s (s.pc + 1) :=
  busRead_afterFetch8 s (fun h => (succ_ne_of_draw h).1)

/-- The third byte of a fetch. -/
theorem busRead_fetch_two (s : State) :
    busRead (afterFetch8 (afterFetch8 s)) (s.pc + 2) = busRead s (s.pc + 2) := by
  rw [busRead_afterFetch8, busRead_afterFetch8 s (fun h => (succ_ne_of_draw h).2)]
  intro h
  rw [afterFetch8_eq] at h
  have h2 := (succ_ne_of_draw h).1
  rwa [addr_add_one_one] at h2

/-- The bytes of a fetch of one to three bytes are those at PC in the state before it. -/
theorem fetchBytes_bytes (s : State) :
    (fetchBytes 1 s).1 = [busRead s s.pc] ∧
    (fetchBytes 2 s).1 = [busRead s s.pc, busRead s (s.pc + 1)] ∧
    (fetchBytes 3 s).1 = [busRead s s.pc, busRead s (s.pc + 1), busRead s (s.pc + 2)] := by
  have h1 : (afterFetch8 s).pc = s.pc + 1 := by rw [afterFetch8_eq]
  have h2 : (afterFetch8 (afterFetch8 s)).pc = s.pc + 2 := by
    rw [afterFetch8_eq, afterFetch8_eq]
    exact addr_add_one_one s.pc
  refine ⟨rfl, ?_, ?_⟩
  · simp only [fetchBytes, h1, busRead_fetch_one]
  · simp only [fetchBytes, h1, h2, busRead_fetch_one, busRead_fetch_two]

/-- The state after a fetch of one to three bytes: PC past them, and the draws of a byte at $D030. -/
theorem fetchBytes_state (s : State) {n : Nat} (hn : n = 1 ∨ n = 2 ∨ n = 3) :
    (fetchBytes n s).2 = { s with pc := s.pc + BitVec.ofNat 16 n, draws := s.draws + fetchDraws n s.pc } := by
  rcases hn with rfl | rfl | rfl
  · have hd : fetchDraws 1 s.pc = drawsAt s.pc := by simp [fetchDraws]
    simp only [fetchBytes, afterFetch8_eq, hd]
    rfl
  · have hd : fetchDraws 2 s.pc = drawsAt s.pc + drawsAt (s.pc + 1) := by simp [fetchDraws]
    simp only [fetchBytes, afterFetch8_eq, hd, addr_add_one_one, Nat.add_assoc]
    rfl
  · have hd : fetchDraws 3 s.pc = drawsAt s.pc + drawsAt (s.pc + 1) + drawsAt (s.pc + 2) := by simp [fetchDraws]
    simp only [fetchBytes, afterFetch8_eq, hd, addr_add_one_one, addr_add_two_one, Nat.add_assoc]
    rfl

/-- A step either executes the fetched instruction or logs the fault. -/
theorem step_cases (s : State) :
    (∃ i rest s1, fetchInstr s = (.ok (i, rest), s1) ∧ step s = exec i s1) ∨
    (∃ e s1, fetchInstr s = (.error e, s1) ∧
      step s = .next (s1.logFault (.unimplementedOpcode (busRead s s.pc) s.pc))) := by
  unfold step
  rcases hf : fetchInstr s with ⟨r, s1⟩
  cases r with
  | ok p => exact Or.inl ⟨p.1, p.2, s1, by simp, rfl⟩
  | error e => exact Or.inr ⟨e, s1, by simp, rfl⟩

/-- An unimplemented opcode is fetched alone and refused by name. -/
theorem fetchInstr_unimplemented {s : State} (h : lookup (busRead s s.pc) = none) :
    fetchInstr s = (.error (.unimplementedOpcode (busRead s s.pc)), afterFetch8 s) := by
  simp [fetchInstr, fetchLength, h, fetchBytes, decode]

/-- An implemented opcode is fetched whole and decodes. -/
theorem fetchInstr_implemented {s : State} {row : OpcodeRow} (h : lookup (busRead s s.pc) = some row) :
    ∃ i, fetchInstr s = (.ok (i, []), (fetchBytes i.length s).2) ∧ i.opcode = busRead s s.pc := by
  obtain ⟨hop, hs⟩ := lookup_some h
  obtain ⟨h1, h2, h3⟩ := fetchBytes_bytes s
  unfold OpcodeRow.Sound at hs
  have hl : fetchLength (busRead s s.pc) = row.mode.length := by simp [fetchLength, h]
  simp only [fetchInstr, hl]
  split at hs
  · next i hf =>
    obtain ⟨e1, -, e3, e4⟩ := hs
    refine ⟨i, ?_, e1.trans hop⟩
    simp only [e4, h1, decode, h, hf, Instr.length, e3]
  · next mk hf =>
    obtain ⟨e1, -, e3, e4⟩ := hs (busRead s (s.pc + 1))
    refine ⟨mk (busRead s (s.pc + 1)), ?_, e1.trans hop⟩
    simp only [e4, h2, decode, h, hf, Instr.length, e3]
  · next mk hf =>
    obtain ⟨e1, -, e3, e4⟩ := hs (hiLo (busRead s (s.pc + 2)) (busRead s (s.pc + 1)))
    refine ⟨mk (hiLo (busRead s (s.pc + 2)) (busRead s (s.pc + 1))), ?_, e1.trans hop⟩
    simp only [e4, h3, decode, h, hf, Instr.length, e3]

/-- A fetch changes PC and the draws only. -/
theorem fetchInstr_state (s : State) :
    ∃ n, (n = 1 ∨ n = 2 ∨ n = 3) ∧
      (fetchInstr s).2 = { s with pc := s.pc + BitVec.ofNat 16 n, draws := s.draws + fetchDraws n s.pc } := by
  cases h : lookup (busRead s s.pc) with
  | none =>
    refine ⟨1, Or.inl rfl, ?_⟩
    rw [fetchInstr_unimplemented h]
    exact fetchBytes_state s (Or.inl rfl)
  | some row =>
    obtain ⟨i, hi, -⟩ := fetchInstr_implemented h
    exact ⟨i.length, length_cases i, by rw [hi]; exact fetchBytes_state s (length_cases i)⟩

end Sys2Proof.Machine
end

