-- ==== Sys2Proof/Laws/Video.lean ====
section
/-! SUPPORT. What one pixel clock does, said once, and what the colour of a pixel depends on. -/

namespace Sys2Proof.Machine

/-- Painting changes FRONT only. -/
theorem paint_eq (p : Config.VideoParams) (s : State) : paint p s = { s with front := (paint p s).front } := by
  unfold paint
  split <;> rfl

/-- Advancing changes the raster position and, at the wrap, BACK. -/
theorem advance_eq (s : State) :
    advance s = { s with rx := (advance s).rx, ry := (advance s).ry, back := (advance s).back } := by
  unfold advance
  split
  · rfl
  · split <;> rfl

/-- Advancing moves one position on in scan order, modulo the grid. -/
theorem rasterIndex_advance (s : State) : rasterIndex (advance s) = (rasterIndex s + 1) % 157248 := by
  have hx := s.rx.isLt
  have hy := s.ry.isLt
  unfold advance rasterIndex
  split
  · simp only
    omega
  · split
    · simp only [Fin.val_zero]
      omega
    · simp only [publish, Fin.val_zero]
      omega

/-- BACK takes FRONT exactly at the last position of the grid. -/
theorem back_advance (s : State) :
    (advance s).back = if rasterIndex s = 157247 then s.front else s.back := by
  have hx := s.rx.isLt
  have hy := s.ry.isLt
  unfold advance
  split
  · rw [if_neg (by unfold rasterIndex; omega)]
  · split
    · rw [if_neg (by unfold rasterIndex; omega)]
    · rw [if_pos (by unfold rasterIndex; omega)]
      rfl

@[simp] theorem front_advance (s : State) : (advance s).front = s.front := by rw [advance_eq]

@[simp] theorem rasterIndex_paint (p : Config.VideoParams) (s : State) : rasterIndex (paint p s) = rasterIndex s := by
  rw [paint_eq]
  rfl

@[simp] theorem back_paint (p : Config.VideoParams) (s : State) : (paint p s).back = s.back := by rw [paint_eq]

/-- Painting keeps FRONT canonical. -/
theorem paint_wf (p : Config.VideoParams) {s : State} (h : s.front.wf = true) : (paint p s).front.wf = true := by
  unfold paint
  split
  · next hc => exact FrameBuffer.paint_wf h (by omega) (by omega) _
  · exact h

/-- k + 1 pixel clocks are one, then k; and k, then one. -/
theorem pixelClocks_succ (p : Config.VideoParams) (k : Nat) (s : State) :
    pixelClocks p (k + 1) s = advance (paint p (pixelClocks p k s)) := by
  induction k generalizing s with
  | zero => rfl
  | succ k ih =>
    rw [show pixelClocks p (k + 1 + 1) s = pixelClocks p (k + 1) (advance (paint p s)) from rfl, ih]
    rfl

/-- A read below the BASIC window depends on RAM only. -/
theorem busRead_low {s t : State} {a : Addr} (hr : t.ram = s.ram) (h : a.toNat < 0xA000) : busRead t a = busRead s a := by
  rw [busRead_ram (region_low h), busRead_ram (region_low h)]
  simp only [ramAt, hr]

theorem toNat_ofNat_low {k : Nat} (h : k < 0xA000) : (BitVec.ofNat 16 k : Addr).toNat = k := by
  rw [BitVec.toNat_ofNat]
  exact Nat.mod_eq_of_lt (by omega)

/-- The character layer depends on RAM only, inside the content rectangle. -/
theorem charBit_congr {s t : State} (hr : t.ram = s.ram) {cx cy : Nat} (hx : cx < 320) (hy : cy < 200) :
    charBit t cx cy = charBit s cx cy := by
  unfold charBit
  have hlt : screenBase + cy / 8 * 40 + cx / 8 < 0xA000 := by
    unfold screenBase
    omega
  have hb : busRead t (BitVec.ofNat 16 (screenBase + cy / 8 * 40 + cx / 8)) =
      busRead s (BitVec.ofNat 16 (screenBase + cy / 8 * 40 + cx / 8)) :=
    busRead_low hr (by rw [toNat_ofNat_low hlt]; exact hlt)
  simp only [hb, vidRead, ramAt, hr]

/-- The sprite layer depends on RAM and the register file only. -/
theorem spriteBit_congr (p : Config.VideoParams) {s t : State} (hr : t.ram = s.ram) (hv : t.vic = s.vic) (i : Fin 8)
    (cx cy : Nat) : spriteBit p t i cx cy = spriteBit p s i cx cy := by
  have hi := i.isLt
  have hp : busRead t (BitVec.ofNat 16 (screenBase + 0x3F8 + i.val)) =
      busRead s (BitVec.ofNat 16 (screenBase + 0x3F8 + i.val)) := by
    have hlt : screenBase + 0x3F8 + i.val < 0xA000 := by
      unfold screenBase
      omega
    exact busRead_low hr (by rw [toNat_ofNat_low hlt]; exact hlt)
  have hb := (busRead s (BitVec.ofNat 16 (screenBase + 0x3F8 + i.val))).isLt
  unfold spriteBit
  simp only [spriteX, spriteY, hv, hp]
  refine ite_congr rfl (fun hc => ?_) (fun _ => rfl)
  rw [Bool.and_eq_true] at hc
  obtain ⟨h1, h2, h3, h4⟩ := of_decide_eq_true hc.2
  rw [busRead_low hr]
  rw [toNat_ofNat_low] <;> omega

/-- The colour of a frame-buffer pixel depends on RAM and the register file only. -/
theorem pixelColour_congr (p : Config.VideoParams) {s t : State} (hr : t.ram = s.ram) (hv : t.vic = s.vic)
    (fx fy : Nat) : pixelColour p t fx fy = pixelColour p s fx fy := by
  unfold pixelColour
  split
  · next hc =>
    unfold inContent at hc
    have hc := of_decide_eq_true hc
    unfold contentColour
    rw [charBit_congr hr (by omega) (by omega)]
    have : spriteOver p t (fx - 40) (fy - 40) = spriteOver p s (fx - 40) (fy - 40) := by
      funext c i
      simp only [spriteOver, spriteBit_congr p hr hv, spriteColour, hv]
    simp only [this, backgroundColour, hv]
  · simp only [borderColour, hv]

end Sys2Proof.Machine
end

