-- ==== Sys2Proof/Tests/Slice0.lean ====
section
/-! SUPPORT. The model's own tests: what WellFormed refuses, every constructor's decoding from the bytes of R56, one
step per vector of 95_test_vectors.md (the source of every expected result), the placing of a table word, and a
witness for the hypotheses of each statement in Obligations.lean. -/

namespace Sys2Proof.Machine.Tests

/-- The bytes decode to the instruction with nothing left over. -/
def reads (bytes : List Byte) (i : Instr) : Bool := decide (decode bytes = .ok (i, []))

/-- Code at $C000, where PC is, and some RAM cells; the rest as after reset. -/
def start (code : List Byte) (cells : List (Addr × Byte)) : State :=
  writeBytes 0xC000 code { State.reset with pc := 0xC000, ram := Memory.ofList cells }

/-- What one step leaves, seen through `f`; none where the step stops. -/
def after {α : Type} (s : State) (f : State → α) : Option α :=
  match step s with
  | .next t => some (f t)
  | .fault _ => none
  | .refused _ => none

/-- The flags N V B D I Z C from 0 and 1. -/
def flagsOf (n v b d i z c : Nat) : Flags := ⟨n == 1, v == 1, b == 1, d == 1, i == 1, z == 1, c == 1⟩

/-! ### WellFormed refuses -/

/-- R64, R85, R62 and R66 list no such form. -/
theorem test_wellFormed_refuses_forms :
    legalForm .sta .imm = false ∧ legalForm .bit .imm = false ∧ legalForm .bit .abx = false ∧
    legalForm .ldx .zpx = false ∧ legalForm .ldx .abx = false ∧ legalForm .sty .abx = false ∧
    legalForm .jsr .ind = false ∧ legalForm .inc .acc = false := by
  decide

/-- The blank margins of R138 end at 104 and 32. -/
theorem test_wellFormed_refuses_margins :
    ({ Config.defaultVideo with hBlankLeft := 105 } : Config.VideoParams).wellFormed = false ∧
    ({ Config.defaultVideo with vBlankTop := 33 } : Config.VideoParams).wellFormed = false ∧
    ({ Config.defaultVideo with hBlankLeft := 104, vBlankTop := 32 } : Config.VideoParams).wellFormed = true := by
  decide

/-- The ranges of R152 and R153. -/
theorem test_wellFormed_refuses_ranges :
    loadFits 65535 2 = false ∧ loadFits 65535 1 = true ∧ loadFits 65536 0 = true ∧
    pcFits 0x10000 = false ∧ pcFits 0xFFFF = true := by
  decide

/-! ### Decoding -/

/-- One word of each family, bit by bit from R55. -/
theorem test_decode_bits :
    reads [0b10101001, 0b10000000] (.ldaImm 0b10000000) ∧ reads [0b10001101, 0b00100000, 0b11010000] (.staAbs 0xD020) ∧
    reads [0b10101010] .tax ∧ reads [0b01001000] .pha ∧ reads [0b01101001, 0b01000110] (.adcImm 0x46) ∧
    reads [0b11101001, 0b00000001] (.sbcImm 1) ∧ reads [0b00100100, 0b00010000] (.bitZp 0x10) ∧
    reads [0b11000001, 0b00100000] (.cmpIzx 0x20) ∧ reads [0b11001110, 0b00000000, 0b00000100] (.decAbs 0x0400) ∧
    reads [0b01101010] .rorAcc ∧ reads [0b01101100, 0b11111111, 0b00010010] (.jmpInd 0x12FF) ∧
    reads [0b11010000, 0b11110101] (.bne 0xF5) ∧ reads [0b11111000] .sed := by
  decide

/-- A short instruction is refused by name, and so are unimplemented bytes, alone. -/
theorem test_decode_refuses :
    decode [] ≠ .ok (.nop, []) ∧ decode [0xAD, 0x34] ≠ .ok (.ldaAbs 0x34, []) ∧
    decode [0x02] = .error (.unimplementedOpcode 0x02) ∧ decode [0xFF, 0xEA] = .error (.unimplementedOpcode 0xFF) ∧
    decode [0x89, 0x00] = .error (.unimplementedOpcode 0x89) := by
  decide

/-- Table words number their bits from the first byte, and bits not given are 0. -/
theorem test_decodeTableWord :
    decodeTableWord 24 0x12FF6C = some (.jmpInd 0x12FF) ∧ decodeTableWord 8 0xAD = some (.ldaAbs 0) ∧
    decodeTableWord 8 0xFFEA = some .nop ∧ decodeTableWord 8 0x02 = none := by
  decide

/-- Loads (R61 to R63): every form, by the bytes of R56. -/
theorem test_decode_loads :
    reads [0xA9, 0x85] (.ldaImm 0x85) ∧ reads [0xA5, 0x85] (.ldaZp 0x85) ∧ reads [0xB5, 0x85] (.ldaZpx 0x85) ∧
    reads [0xA1, 0x85] (.ldaIzx 0x85) ∧ reads [0xB1, 0x85] (.ldaIzy 0x85) ∧
    reads [0xAD, 0x34, 0x12] (.ldaAbs 0x1234) ∧ reads [0xBD, 0x34, 0x12] (.ldaAbx 0x1234) ∧
    reads [0xB9, 0x34, 0x12] (.ldaAby 0x1234) ∧ reads [0xA2, 0x85] (.ldxImm 0x85) ∧
    reads [0xA6, 0x85] (.ldxZp 0x85) ∧ reads [0xB6, 0x85] (.ldxZpy 0x85) ∧
    reads [0xAE, 0x34, 0x12] (.ldxAbs 0x1234) ∧ reads [0xBE, 0x34, 0x12] (.ldxAby 0x1234) ∧
    reads [0xA0, 0x85] (.ldyImm 0x85) ∧ reads [0xA4, 0x85] (.ldyZp 0x85) ∧ reads [0xB4, 0x85] (.ldyZpx 0x85) ∧
    reads [0xAC, 0x34, 0x12] (.ldyAbs 0x1234) ∧ reads [0xBC, 0x34, 0x12] (.ldyAbx 0x1234) := by
  decide

/-- Stores (R64 to R66): every form, by the bytes of R56. -/
theorem test_decode_stores :
    reads [0x85, 0x85] (.staZp 0x85) ∧ reads [0x95, 0x85] (.staZpx 0x85) ∧ reads [0x81, 0x85] (.staIzx 0x85) ∧
    reads [0x91, 0x85] (.staIzy 0x85) ∧ reads [0x8D, 0x34, 0x12] (.staAbs 0x1234) ∧
    reads [0x9D, 0x34, 0x12] (.staAbx 0x1234) ∧ reads [0x99, 0x34, 0x12] (.staAby 0x1234) ∧
    reads [0x86, 0x85] (.stxZp 0x85) ∧ reads [0x96, 0x85] (.stxZpy 0x85) ∧
    reads [0x8E, 0x34, 0x12] (.stxAbs 0x1234) ∧ reads [0x84, 0x85] (.styZp 0x85) ∧
    reads [0x94, 0x85] (.styZpx 0x85) ∧ reads [0x8C, 0x34, 0x12] (.styAbs 0x1234) := by
  decide

/-- Transfers and the stack (R67 to R78): every form, by the bytes of R56. -/
theorem test_decode_transfers_stack :
    reads [0xAA] .tax ∧ reads [0xA8] .tay ∧ reads [0x8A] .txa ∧ reads [0x98] .tya ∧ reads [0xBA] .tsx ∧
    reads [0x9A] .txs ∧ reads [0x48] .pha ∧ reads [0x08] .php ∧ reads [0x68] .pla ∧ reads [0x28] .plp := by
  decide

/-- ADC and SBC (R80, R81): every form, by the bytes of R56. -/
theorem test_decode_adc_sbc :
    reads [0x69, 0x85] (.adcImm 0x85) ∧ reads [0x65, 0x85] (.adcZp 0x85) ∧ reads [0x75, 0x85] (.adcZpx 0x85) ∧
    reads [0x61, 0x85] (.adcIzx 0x85) ∧ reads [0x71, 0x85] (.adcIzy 0x85) ∧
    reads [0x6D, 0x34, 0x12] (.adcAbs 0x1234) ∧ reads [0x7D, 0x34, 0x12] (.adcAbx 0x1234) ∧
    reads [0x79, 0x34, 0x12] (.adcAby 0x1234) ∧ reads [0xE9, 0x85] (.sbcImm 0x85) ∧
    reads [0xE5, 0x85] (.sbcZp 0x85) ∧ reads [0xF5, 0x85] (.sbcZpx 0x85) ∧ reads [0xE1, 0x85] (.sbcIzx 0x85) ∧
    reads [0xF1, 0x85] (.sbcIzy 0x85) ∧ reads [0xED, 0x34, 0x12] (.sbcAbs 0x1234) ∧
    reads [0xFD, 0x34, 0x12] (.sbcAbx 0x1234) ∧ reads [0xF9, 0x34, 0x12] (.sbcAby 0x1234) := by
  decide

/-- AND and ORA (R82, R83): every form, by the bytes of R56. -/
theorem test_decode_and_ora :
    reads [0x29, 0x85] (.andImm 0x85) ∧ reads [0x25, 0x85] (.andZp 0x85) ∧ reads [0x35, 0x85] (.andZpx 0x85) ∧
    reads [0x21, 0x85] (.andIzx 0x85) ∧ reads [0x31, 0x85] (.andIzy 0x85) ∧
    reads [0x2D, 0x34, 0x12] (.andAbs 0x1234) ∧ reads [0x3D, 0x34, 0x12] (.andAbx 0x1234) ∧
    reads [0x39, 0x34, 0x12] (.andAby 0x1234) ∧ reads [0x09, 0x85] (.oraImm 0x85) ∧
    reads [0x05, 0x85] (.oraZp 0x85) ∧ reads [0x15, 0x85] (.oraZpx 0x85) ∧ reads [0x01, 0x85] (.oraIzx 0x85) ∧
    reads [0x11, 0x85] (.oraIzy 0x85) ∧ reads [0x0D, 0x34, 0x12] (.oraAbs 0x1234) ∧
    reads [0x1D, 0x34, 0x12] (.oraAbx 0x1234) ∧ reads [0x19, 0x34, 0x12] (.oraAby 0x1234) := by
  decide

/-- EOR and BIT (R84, R85): every form, by the bytes of R56. -/
theorem test_decode_eor_bit :
    reads [0x49, 0x85] (.eorImm 0x85) ∧ reads [0x45, 0x85] (.eorZp 0x85) ∧ reads [0x55, 0x85] (.eorZpx 0x85) ∧
    reads [0x41, 0x85] (.eorIzx 0x85) ∧ reads [0x51, 0x85] (.eorIzy 0x85) ∧
    reads [0x4D, 0x34, 0x12] (.eorAbs 0x1234) ∧ reads [0x5D, 0x34, 0x12] (.eorAbx 0x1234) ∧
    reads [0x59, 0x34, 0x12] (.eorAby 0x1234) ∧ reads [0x24, 0x85] (.bitZp 0x85) ∧
    reads [0x2C, 0x34, 0x12] (.bitAbs 0x1234) := by
  decide

/-- Compares (R87 to R89): every form, by the bytes of R56. -/
theorem test_decode_compare :
    reads [0xC9, 0x85] (.cmpImm 0x85) ∧ reads [0xC5, 0x85] (.cmpZp 0x85) ∧ reads [0xD5, 0x85] (.cmpZpx 0x85) ∧
    reads [0xC1, 0x85] (.cmpIzx 0x85) ∧ reads [0xD1, 0x85] (.cmpIzy 0x85) ∧
    reads [0xCD, 0x34, 0x12] (.cmpAbs 0x1234) ∧ reads [0xDD, 0x34, 0x12] (.cmpAbx 0x1234) ∧
    reads [0xD9, 0x34, 0x12] (.cmpAby 0x1234) ∧ reads [0xE0, 0x85] (.cpxImm 0x85) ∧
    reads [0xE4, 0x85] (.cpxZp 0x85) ∧ reads [0xEC, 0x34, 0x12] (.cpxAbs 0x1234) ∧
    reads [0xC0, 0x85] (.cpyImm 0x85) ∧ reads [0xC4, 0x85] (.cpyZp 0x85) ∧
    reads [0xCC, 0x34, 0x12] (.cpyAbs 0x1234) := by
  decide

/-- Increments and decrements (R90 to R95): every form, by the bytes of R56. -/
theorem test_decode_inc_dec :
    reads [0xE6, 0x85] (.incZp 0x85) ∧ reads [0xF6, 0x85] (.incZpx 0x85) ∧
    reads [0xEE, 0x34, 0x12] (.incAbs 0x1234) ∧ reads [0xFE, 0x34, 0x12] (.incAbx 0x1234) ∧
    reads [0xC6, 0x85] (.decZp 0x85) ∧ reads [0xD6, 0x85] (.decZpx 0x85) ∧
    reads [0xCE, 0x34, 0x12] (.decAbs 0x1234) ∧ reads [0xDE, 0x34, 0x12] (.decAbx 0x1234) ∧ reads [0xE8] .inx ∧
    reads [0xC8] .iny ∧ reads [0xCA] .dex ∧ reads [0x88] .dey := by
  decide

/-- ASL and LSR (R96, R97): every form, by the bytes of R56. -/
theorem test_decode_asl_lsr :
    reads [0x0A] .aslAcc ∧ reads [0x06, 0x85] (.aslZp 0x85) ∧ reads [0x16, 0x85] (.aslZpx 0x85) ∧
    reads [0x0E, 0x34, 0x12] (.aslAbs 0x1234) ∧ reads [0x1E, 0x34, 0x12] (.aslAbx 0x1234) ∧
    reads [0x4A] .lsrAcc ∧ reads [0x46, 0x85] (.lsrZp 0x85) ∧ reads [0x56, 0x85] (.lsrZpx 0x85) ∧
    reads [0x4E, 0x34, 0x12] (.lsrAbs 0x1234) ∧ reads [0x5E, 0x34, 0x12] (.lsrAbx 0x1234) := by
  decide

/-- ROL and ROR (R98, R99): every form, by the bytes of R56. -/
theorem test_decode_rol_ror :
    reads [0x2A] .rolAcc ∧ reads [0x26, 0x85] (.rolZp 0x85) ∧ reads [0x36, 0x85] (.rolZpx 0x85) ∧
    reads [0x2E, 0x34, 0x12] (.rolAbs 0x1234) ∧ reads [0x3E, 0x34, 0x12] (.rolAbx 0x1234) ∧
    reads [0x6A] .rorAcc ∧ reads [0x66, 0x85] (.rorZp 0x85) ∧ reads [0x76, 0x85] (.rorZpx 0x85) ∧
    reads [0x6E, 0x34, 0x12] (.rorAbs 0x1234) ∧ reads [0x7E, 0x34, 0x12] (.rorAbx 0x1234) := by
  decide

/-- Jumps, subroutines and the trap (R100 to R104): every form, by the bytes of R56. -/
theorem test_decode_jumps :
    reads [0x4C, 0x34, 0x12] (.jmpAbs 0x1234) ∧ reads [0x6C, 0x34, 0x12] (.jmpInd 0x1234) ∧
    reads [0x20, 0x34, 0x12] (.jsr 0x1234) ∧ reads [0x60] .rts ∧ reads [0x00] .brk ∧ reads [0x40] .rti := by
  decide

/-- Branches (R106 to R113): every form, by the bytes of R56. -/
theorem test_decode_branches :
    reads [0x90, 0x85] (.bcc 0x85) ∧ reads [0xB0, 0x85] (.bcs 0x85) ∧ reads [0xF0, 0x85] (.beq 0x85) ∧
    reads [0xD0, 0x85] (.bne 0x85) ∧ reads [0x30, 0x85] (.bmi 0x85) ∧ reads [0x10, 0x85] (.bpl 0x85) ∧
    reads [0x50, 0x85] (.bvc 0x85) ∧ reads [0x70, 0x85] (.bvs 0x85) := by
  decide

/-- Flag instructions and NOP (R114 to R121): every form, by the bytes of R56. -/
theorem test_decode_flags :
    reads [0x18] .clc ∧ reads [0x38] .sec ∧ reads [0x58] .cli ∧ reads [0x78] .sei ∧ reads [0xB8] .clv ∧
    reads [0xD8] .cld ∧ reads [0xF8] .sed ∧ reads [0xEA] .nop := by
  decide

/-! ### One step per vector -/

/-- V-LS-1, V-LS-2, V-LS-4. -/
theorem test_lda :
    after (start [0xA9, 0x00] []) (fun t => (t.a, t.flags, t.cyc, t.pc)) =
      some (0x00, flagsOf 0 0 0 0 0 1 0, 2, 0xC002) ∧
    after (start [0xA9, 0x80] []) (fun t => (t.a, t.flags)) = some (0x80, flagsOf 1 0 0 0 0 0 0) ∧
    after { start [0xAD, 0x20, 0xD0] [] with vic := (Vector.replicate 48 0).set 0x20 0x0E }
      (fun t => (t.a, t.cyc, t.pc)) = some (0x0E, 4, 0xC003) := by
  decide

/-- V-AM-1, V-AM-3 to V-AM-5: the zero-page wrap, the page crossing and the wrap at $FFFF. -/
theorem test_lda_indexed :
    after { start [0xB5, 0xF8] [(0x0008, 0x33)] with x := 0x10 } (fun t => (t.a, t.cyc)) = some (0x33, 4) ∧
    after { start [0xBD, 0xFF, 0x12] [(0x1300, 0x44)] with x := 0x01 } (fun t => (t.a, t.cyc)) = some (0x44, 5) ∧
    after (start [0xBD, 0xFF, 0x12] [(0x12FF, 0x45)]) (fun t => (t.a, t.cyc)) = some (0x45, 4) ∧
    after { start [0xBD, 0xFF, 0xFF] [(0x0001, 0x46)] with x := 0x02 } (fun t => (t.a, t.cyc)) = some (0x46, 5) := by
  decide

/-- V-AM-7 to V-AM-10: the indirect modes and their pointer wraps. -/
theorem test_addressing_indirect :
    after { start [0xA1, 0x20] [(0x24, 0x40), (0x25, 0xC0), (0xC040, 0x51)] with x := 0x04 }
      (fun t => (t.a, t.cyc)) = some (0x51, 6) ∧
    after (start [0xA1, 0xFF] [(0xFF, 0x34), (0x00, 0x12), (0x1234, 0x52)]) (fun t => (t.a, t.cyc)) = some (0x52, 6) ∧
    after { start [0xB1, 0x20] [(0x20, 0xFF), (0x21, 0x12), (0x1300, 0x53)] with y := 0x01 }
      (fun t => (t.a, t.cyc)) = some (0x53, 6) ∧
    after (start [0xB1, 0xFF] [(0xFF, 0x40), (0x00, 0xC0), (0xC040, 0x54)]) (fun t => (t.a, t.cyc)) =
      some (0x54, 5) := by
  decide

/-- V-AM-2, and the immediate form of R62. -/
theorem test_ldx :
    after { start [0xB6, 0xFF] [(0x0001, 0x61)] with y := 0x02 } (fun t => (t.x, t.cyc)) = some (0x61, 4) ∧
    after (start [0xA2, 0x00] []) (fun t => (t.x, t.flags)) = some (0x00, flagsOf 0 0 0 0 0 1 0) := by
  decide

/-- V-LS-5. -/
theorem test_ldy : after (start [0xA0, 0xFF] []) (fun t => (t.y, t.flags, t.cyc)) =
    some (0xFF, flagsOf 1 0 0 0 0 0 0, 2) := by
  decide

/-- V-LS-6, V-AM-6, V-AM-11: indexed stores cost no extra cycle and change no flag. -/
theorem test_sta :
    after { start [0x9D, 0x00, 0x04] [] with a := 0x48, x := 0x03 } (fun t => (ramAt t 0x0403, t.flags, t.cyc)) =
      some (0x48, resetFlags, 5) ∧
    after { start [0x9D, 0xFF, 0x12] [] with a := 0x49, x := 0x01 } (fun t => (ramAt t 0x1300, t.cyc)) =
      some (0x49, 5) ∧
    after { start [0x91, 0x20] [(0x20, 0xFF), (0x21, 0x12)] with a := 0x4A, y := 0x01 }
      (fun t => (ramAt t 0x1300, t.cyc)) = some (0x4A, 6) := by
  decide

/-- V-BUS-3: a store in the VIC window reaches the register and leaves the RAM cell. -/
theorem test_sta_vic :
    after { start [0x8D, 0x20, 0xD0] [(0xD020, 0x77)] with a := 0x0E }
      (fun t => (t.vic[0x20], ramAt t 0xD020, busRead t 0xD020)) = some (0x0E, 0x77, 0x0E) := by
  decide

/-- V-LS-7, V-LS-8. -/
theorem test_stx_sty :
    after { start [0x86, 0xFB] [] with x := 0x13 } (fun t => (ramAt t 0x00FB, t.cyc)) = some (0x13, 3) ∧
    after { start [0x8C, 0x20, 0xD0] [] with y := 0x07 } (fun t => (t.vic[0x20], t.cyc)) = some (0x07, 4) := by
  decide

/-- V-LS-9 to V-LS-12, and the examples of R68 and R69. -/
theorem test_transfers :
    after (start [0xAA] []) (fun t => (t.x, t.flags, t.cyc)) = some (0x00, flagsOf 0 0 0 0 0 1 0, 2) ∧
    after { start [0x9A] [] with x := 0x80 } (fun t => (t.sp, t.flags)) = some (0x80, resetFlags) ∧
    after { start [0xBA] [] with sp := 0xFD } (fun t => (t.x, t.flags)) = some (0xFD, flagsOf 1 0 0 0 0 0 0) ∧
    after { start [0x98] [] with y := 0x7F } (fun t => (t.a, t.flags)) = some (0x7F, resetFlags) ∧
    after { start [0xA8] [] with y := 0x11 } (fun t => (t.y, t.flags.z)) = some (0x00, true) ∧
    after { start [0x8A] [] with x := 0x7F } (fun t => (t.a, t.flags)) = some (0x7F, resetFlags) := by
  decide

/-- V-ST-1 to V-ST-3. -/
theorem test_pha_pla :
    after { start [0x48] [] with a := 0x42 } (fun t => (ramAt t 0x01FF, t.sp, t.cyc)) = some (0x42, 0xFE, 3) ∧
    after { start [0x48] [] with a := 0x42, sp := 0x00 } (fun t => (ramAt t 0x0100, t.sp)) = some (0x42, 0xFF) ∧
    after { start [0x68] [] with a := 0x42 } (fun t => (t.a, t.flags.z, t.sp, t.cyc)) = some (0x00, true, 0x00, 4) := by
  decide

/-- V-ST-4 to V-ST-6. -/
theorem test_php_plp :
    after { start [0x08] [] with flags := flagsOf 1 0 0 0 1 0 1 } (fun t => (ramAt t 0x01FF, t.sp, t.cyc)) =
      some (0xB5, 0xFE, 3) ∧
    after { start [0x28] [(0x01FF, 0xFF)] with sp := 0xFE } (fun t => (t.flags, t.sp, t.cyc)) =
      some (flagsOf 1 1 0 1 1 1 1, 0xFF, 4) ∧
    after { start [0x28] [] with sp := 0xFE, flags := flagsOf 1 1 1 1 1 1 1 } (fun t => t.flags) =
      some (flagsOf 0 0 1 0 0 0 0) := by
  decide

/-- A, then N V Z C, after an arithmetic step. -/
def arith (t : State) : Byte × List Bool := (t.a, [t.flags.n, t.flags.v, t.flags.z, t.flags.c])

/-- V-ADC-1 to V-ADC-7. -/
theorem test_adc_binary :
    after { start [0x69, 0x01] [] with a := 0x01 } arith = some (0x02, [false, false, false, false]) ∧
    after { start [0x69, 0x01] [] with a := 0xFF } arith = some (0x00, [false, false, true, true]) ∧
    after { start [0x69, 0x01] [] with a := 0x7F } arith = some (0x80, [true, true, false, false]) ∧
    after { start [0x69, 0x80] [] with a := 0x80 } arith = some (0x00, [false, true, true, true]) ∧
    after { start [0x69, 0xFF] [] with a := 0xFF, flags := flagsOf 0 0 0 0 0 0 1 } arith =
      some (0xFF, [true, false, false, true]) ∧
    after { start [0x69, 0x50] [] with a := 0x50 } arith = some (0xA0, [true, true, false, false]) ∧
    after { start [0x69, 0xFF] [] with a := 0x80 } arith = some (0x7F, [false, true, false, true]) := by
  decide

/-- A, then N Z C, after a decimal step: V is free (log 7). -/
def decimal (t : State) : Byte × List Bool := (t.a, [t.flags.n, t.flags.z, t.flags.c])

/-- V-ADC-8 to V-ADC-12. -/
theorem test_adc_decimal :
    after { start [0x69, 0x01] [] with a := 0x19, flags := flagsOf 0 0 0 1 0 0 0 } decimal =
      some (0x20, [false, false, false]) ∧
    after { start [0x69, 0x01] [] with a := 0x99, flags := flagsOf 0 0 0 1 0 0 0 } decimal =
      some (0x00, [false, true, true]) ∧
    after { start [0x69, 0x46] [] with a := 0x58, flags := flagsOf 0 0 0 1 0 0 1 } decimal =
      some (0x05, [false, false, true]) ∧
    after { start [0x69, 0x09] [] with a := 0x09, flags := flagsOf 0 0 0 1 0 0 1 } decimal =
      some (0x19, [false, false, false]) ∧
    after { start [0x69, 0x00] [] with a := 0x0F, flags := flagsOf 0 0 0 1 0 0 0 } decimal =
      some (0x15, [false, false, false]) := by
  decide

/-- V-SBC-1 to V-SBC-6. -/
theorem test_sbc_binary :
    after { start [0xE9, 0x05] [] with a := 0x05, flags := flagsOf 0 0 0 0 0 0 1 } arith =
      some (0x00, [false, false, true, true]) ∧
    after { start [0xE9, 0x05] [] with a := 0x05 } arith = some (0xFF, [true, false, false, false]) ∧
    after { start [0xE9, 0x01] [] with a := 0x00, flags := flagsOf 0 0 0 0 0 0 1 } arith =
      some (0xFF, [true, false, false, false]) ∧
    after { start [0xE9, 0x01] [] with a := 0x80, flags := flagsOf 0 0 0 0 0 0 1 } arith =
      some (0x7F, [false, true, false, true]) ∧
    after { start [0xE9, 0xF0] [] with a := 0x50, flags := flagsOf 0 0 0 0 0 0 1 } arith =
      some (0x60, [false, false, false, false]) ∧
    after { start [0xE9, 0xFF] [] with a := 0x7F, flags := flagsOf 0 0 0 0 0 0 1 } arith =
      some (0x80, [true, true, false, false]) := by
  decide

/-- V-SBC-7 to V-SBC-10. -/
theorem test_sbc_decimal :
    after { start [0xE9, 0x01] [] with a := 0x00, flags := flagsOf 0 0 0 1 0 0 1 } decimal =
      some (0x99, [true, false, false]) ∧
    after { start [0xE9, 0x01] [] with a := 0x20, flags := flagsOf 0 0 0 1 0 0 1 } decimal =
      some (0x19, [false, false, true]) ∧
    after { start [0xE9, 0x12] [] with a := 0x46, flags := flagsOf 0 0 0 1 0 0 1 } decimal =
      some (0x34, [false, false, true]) ∧
    after { start [0xE9, 0x13] [] with a := 0x40, flags := flagsOf 0 0 0 1 0 0 0 } decimal =
      some (0x26, [false, false, true]) := by
  decide

/-- V-LG-1 to V-LG-4. -/
theorem test_logic :
    after { start [0x29, 0x3C] [] with a := 0xF0 } (fun t => (t.a, t.flags)) = some (0x30, resetFlags) ∧
    after { start [0x29, 0x0F] [] with a := 0xF0 } (fun t => (t.a, t.flags)) = some (0x00, flagsOf 0 0 0 0 0 1 0) ∧
    after { start [0x09, 0x80] [] with a := 0x0F } (fun t => (t.a, t.flags)) = some (0x8F, flagsOf 1 0 0 0 0 0 0) ∧
    after { start [0x49, 0x5A] [] with a := 0x5A } (fun t => (t.a, t.flags)) =
      some (0x00, flagsOf 0 0 0 0 0 1 0) := by
  decide

/-- V-LG-5, V-LG-6. -/
theorem test_bit :
    after { start [0x24, 0x10] [(0x10, 0xC0)] with a := 0x01 } (fun t => (t.a, t.flags)) =
      some (0x01, flagsOf 1 1 0 0 0 1 0) ∧
    after { start [0x24, 0x10] [(0x10, 0x3F)] with a := 0xFF } (fun t => (t.flags, t.cyc)) = some (resetFlags, 3) := by
  decide

/-- V-CP-1 to V-CP-6. -/
theorem test_compare :
    after { start [0xC9, 0x41] [] with a := 0x40 } (fun t => t.flags) = some (flagsOf 1 0 0 0 0 0 0) ∧
    after { start [0xC9, 0x41] [] with a := 0x41 } (fun t => t.flags) = some (flagsOf 0 0 0 0 0 1 1) ∧
    after { start [0xC9, 0x00] [] with a := 0x80 } (fun t => t.flags) = some (flagsOf 1 0 0 0 0 0 1) ∧
    after { start [0xC9, 0x80] [] with a := 0x00 } (fun t => t.flags) = some (flagsOf 1 0 0 0 0 0 0) ∧
    after { start [0xE0, 0x13] [] with x := 0x13 } (fun t => t.flags) = some (flagsOf 0 0 0 0 0 1 1) ∧
    after { start [0xC0, 0x01] [] with flags := flagsOf 0 0 0 1 0 0 0 } (fun t => t.flags) =
      some (flagsOf 1 0 0 1 0 0 0) := by
  decide

/-- V-ID-1 to V-ID-3, V-AM-13. -/
theorem test_inc_dec :
    after (start [0xE6, 0x10] [(0x10, 0xFF)]) (fun t => (ramAt t 0x10, t.flags, t.cyc)) =
      some (0x00, flagsOf 0 0 0 0 0 1 0, 5) ∧
    after (start [0xE6, 0x10] [(0x10, 0x7F)]) (fun t => (ramAt t 0x10, t.flags.n)) = some (0x80, true) ∧
    after (start [0xCE, 0x00, 0x04] []) (fun t => (ramAt t 0x0400, t.flags.n, t.cyc)) = some (0xFF, true, 6) ∧
    after { start [0xFE, 0x01, 0x00] [] with x := 0xFF } (fun t => (ramAt t 0x0100, t.cyc)) = some (0x01, 7) := by
  decide

/-- V-ID-4, V-ID-5, V-ID-7, and the examples of R93 and R94. -/
theorem test_index_counts :
    after { start [0xE8] [] with x := 0xFF } (fun t => (t.x, t.flags.z, t.cyc)) = some (0x00, true, 2) ∧
    after (start [0x88] []) (fun t => (t.y, t.flags.n)) = some (0xFF, true) ∧
    after { start [0xE8] [] with x := 0x09, flags := flagsOf 0 0 0 1 0 0 0 } (fun t => t.x) = some 0x0A ∧
    after { start [0xC8] [] with y := 0xFF } (fun t => (t.y, t.flags.z)) = some (0x00, true) ∧
    after { start [0xCA] [] with x := 0x01 } (fun t => (t.x, t.flags.z)) = some (0x00, true) := by
  decide

/-- V-SH-1 to V-SH-4, V-SH-9. -/
theorem test_shifts :
    after { start [0x0A] [] with a := 0x81 } (fun t => (t.a, t.flags, t.cyc)) = some (0x02, flagsOf 0 0 0 0 0 0 1, 2) ∧
    after { start [0x0A] [] with a := 0x80 } (fun t => (t.a, t.flags)) = some (0x00, flagsOf 0 0 0 0 0 1 1) ∧
    after { start [0x4A] [] with a := 0x01 } (fun t => (t.a, t.flags)) = some (0x00, flagsOf 0 0 0 0 0 1 1) ∧
    after (start [0x46, 0x20] [(0x20, 0xFF)]) (fun t => (ramAt t 0x20, t.flags, t.cyc)) =
      some (0x7F, flagsOf 0 0 0 0 0 0 1, 5) ∧
    after { start [0x1E, 0x00, 0x04] [(0x0401, 0x40)] with x := 0x01 } (fun t => (ramAt t 0x0401, t.flags, t.cyc)) =
      some (0x80, flagsOf 1 0 0 0 0 0 0, 7) := by
  decide

/-- V-SH-5 to V-SH-8. -/
theorem test_rotates :
    after { start [0x2A] [] with a := 0x40, flags := flagsOf 0 0 0 0 0 0 1 } (fun t => (t.a, t.flags)) =
      some (0x81, flagsOf 1 0 0 0 0 0 0) ∧
    after { start [0x2A] [] with a := 0x80 } (fun t => (t.a, t.flags)) = some (0x00, flagsOf 0 0 0 0 0 1 1) ∧
    after { start [0x6A] [] with a := 0x02, flags := flagsOf 0 0 0 0 0 0 1 } (fun t => (t.a, t.flags)) =
      some (0x81, flagsOf 1 0 0 0 0 0 0) ∧
    after { start [0x6A] [] with a := 0x01 } (fun t => (t.a, t.flags)) = some (0x00, flagsOf 0 0 0 0 0 1 1) := by
  decide

/-- V-CT-1 to V-CT-3. -/
theorem test_jmp :
    after (start [0x4C, 0x34, 0x12] []) (fun t => (t.pc, t.cyc)) = some (0x1234, 3) ∧
    after (start [0x6C, 0xFF, 0x12] [(0x12FF, 0x34), (0x1200, 0x12), (0x1300, 0x56)]) (fun t => (t.pc, t.cyc)) =
      some (0x1234, 5) ∧
    after (start [0x6C, 0x80, 0x12] [(0x1280, 0x00), (0x1281, 0xC0)]) (fun t => (t.pc, t.cyc)) = some (0xC000, 5) := by
  decide

/-- V-CT-4, and V-CT-5 from the state it leaves. -/
theorem test_jsr_rts :
    after (start [0x20, 0x00, 0xC1] []) (fun t => (ramAt t 0x01FF, ramAt t 0x01FE, t.sp, t.pc, t.cyc)) =
      some (0xC0, 0x02, 0xFD, 0xC100, 6) ∧
    after { start [0x60] [(0x01FF, 0xC0), (0x01FE, 0x02)] with sp := 0xFD } (fun t => (t.pc, t.sp, t.cyc)) =
      some (0xC003, 0xFF, 6) := by
  decide

/-- V-CT-6 but for the vector's bytes, which are the ROM's. -/
theorem test_brk :
    after (start [0x00] []) (fun t => (ramAt t 0x01FF, ramAt t 0x01FE, ramAt t 0x01FD, t.sp, t.flags, t.cyc)) =
      some (0xC0, 0x02, 0x30, 0xFC, flagsOf 0 0 1 0 1 0 0, 7) := by
  decide

/-- V-CT-6: the target is KERNAL ROM. -/
theorem test_brk_vector :
    after (start [0x00] []) (fun t => t.pc) = some (hiLo (Config.kernalRom 0x1FFF) (Config.kernalRom 0x1FFE)) := by
  rfl

/-- V-CT-7, from the state V-CT-6 leaves. -/
theorem test_rti :
    after { start [0x40] [(0x01FF, 0xC0), (0x01FE, 0x02), (0x01FD, 0x30)] with
        sp := 0xFC, flags := flagsOf 0 0 1 0 1 0 0 } (fun t => (t.pc, t.sp, t.flags, t.cyc)) =
      some (0xC002, 0xFF, flagsOf 0 0 1 0 0 0 0, 6) := by
  decide

/-- A branch at an address of RAM: its two bytes, and PC there. -/
def branchAt (p : Addr) (op off : Byte) (f : Flags) : State :=
  { State.reset with pc := p, ram := Memory.ofList [(p, op), (p + 1, off)], flags := f }

/-- V-CT-8 to V-CT-11. -/
theorem test_branches_carry_zero :
    after (branchAt 0xC0F0 0x90 0x10 resetFlags) (fun t => (t.pc, t.cyc)) = some (0xC102, 4) ∧
    after (branchAt 0xC000 0xB0 0x05 resetFlags) (fun t => (t.pc, t.cyc)) = some (0xC002, 2) ∧
    after (branchAt 0xC010 0xF0 0xFE (flagsOf 0 0 0 0 0 1 0)) (fun t => (t.pc, t.cyc)) = some (0xC010, 3) ∧
    after (branchAt 0xC00B 0xD0 0xF5 resetFlags) (fun t => (t.pc, t.cyc)) = some (0xC002, 3) := by
  decide

/-- V-CT-12, V-CT-13 and V-CT-15; a BVC, which V-CT-14 places in ROM, at $C000. -/
theorem test_branches_sign_overflow :
    after (branchAt 0xC000 0x30 0x7F (flagsOf 1 0 0 0 0 0 0)) (fun t => (t.pc, t.cyc)) = some (0xC081, 3) ∧
    after (branchAt 0xC000 0x10 0x80 resetFlags) (fun t => (t.pc, t.cyc)) = some (0xBF82, 4) ∧
    after (branchAt 0xC000 0x50 0x02 resetFlags) (fun t => (t.pc, t.cyc)) = some (0xC004, 3) ∧
    after (branchAt 0xC000 0x70 0x00 (flagsOf 0 1 0 0 0 0 0)) (fun t => (t.pc, t.cyc)) = some (0xC002, 3) := by
  decide

/-- V-FL-1 to V-FL-7. -/
theorem test_flags :
    after { start [0x18] [] with flags := flagsOf 1 1 1 1 1 1 1 } (fun t => t.flags) = some (flagsOf 1 1 1 1 1 1 0) ∧
    after (start [0x38] []) (fun t => t.flags) = some (flagsOf 0 0 0 0 0 0 1) ∧
    after { start [0x58] [] with flags := flagsOf 1 1 1 1 1 1 1 } (fun t => t.flags) = some (flagsOf 1 1 1 1 0 1 1) ∧
    after (start [0x78] []) (fun t => t.flags) = some (flagsOf 0 0 0 0 1 0 0) ∧
    after { start [0xB8] [] with flags := flagsOf 1 1 1 1 1 1 1 } (fun t => t.flags) = some (flagsOf 1 0 1 1 1 1 1) ∧
    after { start [0xD8] [] with flags := flagsOf 1 1 1 1 1 1 1 } (fun t => t.flags) = some (flagsOf 1 1 1 0 1 1 1) ∧
    after (start [0xF8] []) (fun t => t.flags) = some (flagsOf 0 0 0 1 0 0 0) := by
  decide

/-- V-FL-8. -/
theorem test_nop : after (start [0xEA] []) id = some { start [0xEA] [] with pc := 0xC001, cyc := 2 } := by
  decide

/-- V-FA-1, V-FA-3, V-FA-4. -/
theorem test_faults :
    after { start [0x02] [] with cyc := 100 } id = some { start [0x02] [] with
        cyc := 100, pc := 0xC001, faultLog := [.unimplementedOpcode 0x02 0xC000] } ∧
    after (start [0xFF] []) (fun t => t.faultLog) = some [.unimplementedOpcode 0xFF 0xC000] ∧
    after (start [0x89] []) (fun t => t.faultLog) = some [.unimplementedOpcode 0x89 0xC000] ∧
    stepReturns (start [0x02] []) = false ∧ stepReturns (start [0xEA] []) = true := by
  decide

/-! ### The Bus -/

/-- V-BUS-4, V-BUS-6, V-BUS-10. -/
theorem test_bus_reads_back :
    busRead (busWrite (busWrite State.reset 0xD015 0xA5) 0xD016 0x5A) 0xD015 = 0xA5 ∧
    busRead (busWrite State.reset 0xD031 0x12) 0xD031 = 0x12 ∧
    busRead (busWrite State.reset 0x9FFF 7) 0x9FFF = 7 ∧ busRead (busWrite State.reset 0xC000 8) 0xC000 = 8 := by
  decide

/-- A read of the KERNAL window, by number. -/
theorem read_kernal {s : State} {a : Addr} {k : BitVec 13} (h : region a = .kernalRom)
    (hk : BitVec.ofNat 13 (a.toNat - 0xE000) = k) : busRead s a = Config.kernalRom k := by
  subst hk
  simp [busRead, h]

/-- A read of the BASIC window, by number. -/
theorem read_basic {s : State} {a : Addr} {k : BitVec 13} (h : region a = .basicRom)
    (hk : BitVec.ofNat 13 (a.toNat - 0xA000) = k) : busRead s a = Config.basicRom k := by
  subst hk
  simp [busRead, h]

/-- A read of $D030. -/
theorem read_oor (s : State) : busRead s 0xD030 = Config.vicOorRead s.draws := by
  have h : region 0xD030 = .vicWindow := by decide
  have h2 : ¬ vicOffset 0xD030 < 48 := by decide
  simp only [busRead, h, vicRead, h2, dite_false]

/-- V-BUS-1, V-BUS-2, V-BUS-5: shadow writes, and the discarded write of $D030. -/
theorem test_bus_shadow :
    busRead (busWrite State.reset 0xE000 0x55) 0xE000 = Config.kernalRom 0 ∧
    ramAt (busWrite State.reset 0xE000 0x55) 0xE000 = 0x55 ∧
    busRead (busWrite State.reset 0xA123 0x01) 0xA123 = Config.basicRom 0x123 ∧
    busWrite State.reset 0xD030 0x12 = State.reset := by
  exact ⟨read_kernal (by decide) (by decide), by decide, read_basic (by decide) (by decide), by decide⟩

/-- V-BUS-7, V-BUS-8: the two views. -/
theorem test_video_view :
    vidRead State.reset 0xD008 = Config.charRom 8 ∧ busRead State.reset 0xD008 = State.reset.vic[8] ∧
    vidRead State.reset 0xDFFF = Config.charRom 0xFFF ∧
    busRead { State.reset with ram := Memory.ofList [(0xDFFF, 0x3C)] } 0xDFFF = 0x3C := by
  refine ⟨?_, by decide, ?_, by decide⟩
  · have h : (0xD000 ≤ (0xD008 : Addr).toNat ∧ (0xD008 : Addr).toNat ≤ 0xDFFF) ∧
        BitVec.ofNat 12 ((0xD008 : Addr).toNat - 0xD000) = 8 := by decide
    simp only [vidRead, h.1, h.2, and_self, if_true]
  · have h : (0xD000 ≤ (0xDFFF : Addr).toNat ∧ (0xDFFF : Addr).toNat ≤ 0xDFFF) ∧
        BitVec.ofNat 12 ((0xDFFF : Addr).toNat - 0xD000) = 0xFFF := by decide
    simp only [vidRead, h.1, h.2, and_self, if_true]

/-- Each read of $D030 is a draw of its own (R35): a load takes the current draw, and the next read the next one. -/
theorem test_draws :
    Source.value (.mem (.abs 0xD030)) State.reset = Config.vicOorRead 0 ∧
    after (start [0xAD, 0x30, 0xD0] []) (fun t => (t.draws, t.pc)) = some (1, 0xC003) ∧
    busRead (afterRead State.reset 0xD030) 0xD030 = Config.vicOorRead 1 := by
  exact ⟨read_oor _, by decide, read_oor _⟩

/-! ### The VideoChip -/

/-- V-VIC-1 and V-VIC-10: eight border pixels, the colour's high nibble ignored. -/
theorem test_render_border :
    let s : State := { State.reset with vic := (Vector.replicate 48 0).set 0x20 0xF2 }
    (render Config.defaultVideo 1 s).front.pixel 0 0 = ⟨0x88, 0x00, 0x00, 0xFF⟩ ∧
    (render Config.defaultVideo 1 s).front.pixel 7 0 = ⟨0x88, 0x00, 0x00, 0xFF⟩ ∧
    (render Config.defaultVideo 1 s).front.pixel 8 0 = unpaintedPixel ∧
    (render Config.defaultVideo 1 s).rx.val = 8 := by
  decide

/-- Sprites 0 and 1 at X = 24, Y = 50, over each other (V-VIC-6); `enable` is register $15. -/
def spriteState (enable : Byte) : State :=
  { State.reset with
    ram := Memory.ofList [(0x07F8, 0x80), (0x07F9, 0x80), (0x2000, 0x80)]
    vic := ((((((((Vector.replicate 48 0).set 0x15 enable).set 0x00 0x18).set 0x01 0x32).set 0x02 0x18).set 0x03
      0x32).set 0x10 0x00).set 0x27 0x01).set 0x28 0x02 }

/-- V-VIC-6, V-VIC-7: the lower sprite wins; V-VIC-8: a sprite at (0, 0) shows nowhere at the corner. -/
theorem test_sprite_priority :
    pixelColour Config.defaultVideo (spriteState 0x03) 40 40 = 1 ∧
    pixelColour Config.defaultVideo (spriteState 0x02) 40 40 = 2 ∧
    spriteBit Config.defaultVideo (spriteState 0x03) 0 1 0 = false ∧
    spriteBit Config.defaultVideo { State.reset with vic := (Vector.replicate 48 0).set 0x15 0x01 } 0 0 0 = false := by
  decide

/-- V-VIC-9: a ninth X bit. -/
theorem test_sprite_msb :
    spriteBit Config.defaultVideo { State.reset with
      ram := Memory.ofList [(0x07F8, 0x81), (0x2040, 0x80)]
      vic := (((Vector.replicate 48 0).set 0x15 0x01).set 0x10 0x01).set 0x01 0x32 } 0 232 0 = true := by
  decide

/-- R27: the bytes of pixel (1, 0) are 4 to 7, in the order R G B A. -/
theorem test_frame_bytes :
    let f := FrameBuffer.paint [] 1 0 ⟨1, 2, 3, 4⟩
    f.byte 3 = 0 ∧ f.byte 4 = 1 ∧ f.byte 5 = 2 ∧ f.byte 6 = 3 ∧ f.byte 7 = 4 ∧ f.byte 8 = 0 := by
  decide

/-! ### Placing a table word -/

/-- From reset, and from a PC in ROM, the next step runs the placed instruction. -/
theorem test_withFetchWord :
    after (State.reset.withFetchWord 16 0x80A9) (fun t => (t.a, t.pc)) = some (0x80, 0x0002) ∧
    after (State.withFetchWord { State.reset with pc := 0xE000 } 24 0x12344C) (fun t => t.pc) = some 0x1234 ∧
    after (State.reset.withFetchWord 8 0x02) (fun t => t.faultLog) = some [.unimplementedOpcode 0x02 0x0000] := by
  decide

/-! ### Witnesses for the statements' hypotheses -/

/-- A state off reset that meets the invariant, with an LDA #$80 at PC. -/
def busy : State :=
  { start [0xA9, 0x80] [(0x0010, 0xFF), (0x01FF, 0x34)] with
    sp := 0xFD
    a := 0x58
    flags := flagsOf 0 0 0 1 0 0 1
    front := FrameBuffer.paint [] 399 279 ⟨1, 2, 3, 255⟩ }

/-- The canonical RAM that StoresWriteOneByte, PushesStoreAndDecrement, PushThenPullRoundTrips, IncDecWriteMemory,
ShiftsMoveOneBit, JsrPushesReturnAddress, BrkTakesTheTrap, ReturnsUndoTheirEntries, ReadAfterWrite,
NextFetchSeesTheStore and LoadBytesWritesInOrder ask for; also StepKeepsInvariant and HostOperationsKeepInvariant. -/
theorem test_witness_invariant : busy.ram.wf = true ∧ busy.Inv := by decide

/-- The lists the instruction statements range over have the forms of R56. -/
theorem test_witness_forms :
    (ldaForms 0 0 0).length = 8 ∧ (ldxForms 0 0 0).length = 5 ∧ (ldyForms 0 0 0).length = 5 ∧
    (staForms 0 0 0).length = 7 ∧ (stxForms 0 0 0).length = 3 ∧ (styForms 0 0 0).length = 3 ∧
    (adcForms 0 0 0).length = 8 ∧ (sbcForms 0 0 0).length = 8 ∧ (andForms 0 0 0).length = 8 ∧
    (oraForms 0 0 0).length = 8 ∧ (eorForms 0 0 0).length = 8 ∧ (bitForms 0 0 0).length = 2 ∧
    (cmpForms 0 0 0).length = 8 ∧ (cpxForms 0 0 0).length = 3 ∧ (cpyForms 0 0 0).length = 3 ∧
    (incForms 0 0 0).length = 4 ∧ (decForms 0 0 0).length = 4 ∧ branchForms.length = 8 ∧ flagForms.length = 7 := by
  decide

/-- ShiftsMoveOneBit: four rules of one accumulator and four memory forms. -/
theorem test_witness_shifts :
    shiftRules.length = 4 ∧ shiftRules.map (fun r => (r.forms 0 0 0).length) = [4, 4, 4, 4] ∧
    shiftRules.map (fun r => r.accInstr) = [.aslAcc, .lsrAcc, .rolAcc, .rorAcc] := by
  decide

/-- StoredByte, at both ends of the VIC window and beside it: the clause that applies. -/
theorem test_witness_stored :
    InVicWindow 0xD000 ∧ InVicWindow 0xD030 ∧ ¬ InVicWindow 0xCFFF ∧ ¬ InVicWindow 0xD031 ∧
    ramAt (busWrite busy 0xCFFF 7) 0xCFFF = 7 ∧ ramAt (busWrite busy 0xD000 7) 0xD000 = 0 ∧
    (busWrite busy 0xD000 7).vic[0] = 7 ∧ (busWrite busy 0xD02F 7).vic[47] = 7 ∧
    (busWrite busy 0xD030 7).ram = busy.ram ∧ (busWrite busy 0xD030 7).vic = busy.vic := by
  decide

/-- BinaryOverflowIsSignedRange: D = 0. -/
theorem test_witness_binary : State.reset.flags.d = false := by decide

/-- DecimalModeComputesOnDigits: D = 1, A = $58, M = $46, every nibble a digit. -/
theorem test_witness_decimal :
    busy.flags.d = true ∧ busy.a.toNat % 16 < 10 ∧ busy.a.toNat / 16 < 10 ∧ (0x46 : Byte).toNat % 16 < 10 ∧
    (0x46 : Byte).toNat / 16 < 10 := by
  decide

/-- DecodeOfEncode and EncodeOfDecode. -/
theorem test_witness_decode :
    (Instr.ldaAbx 0x12FF).wellFormed = true ∧ decode [0xBD, 0xFF, 0x12, 0xEA] = .ok (.ldaAbx 0x12FF, [0xEA]) := by
  decide

/-- UnimplementedBytesAreRefused: bytes on both sides, at the ends of the list. -/
theorem test_witness_unimplemented :
    (0x02 : Byte) ∈ unimplementedBytes ∧ (0xFF : Byte) ∈ unimplementedBytes ∧ (0x00 : Byte) ∉ unimplementedBytes ∧
    (0xFE : Byte) ∉ unimplementedBytes := by
  decide

/-- StepRunsTheDecodedInstruction and OnlyControlTransfersMovePc: an LDA #$80 at PC, which is no control transfer. -/
theorem test_witness_step :
    decode [busRead busy busy.pc, busRead busy (busy.pc + 1), busRead busy (busy.pc + 2)] =
      .ok (.ldaImm 0x80, [0x00]) ∧
    (Instr.ldaImm 0x80).mnemonic ∉ controlTransfers ∧ after busy (fun t => t.pc) = some 0xC002 := by
  decide

/-- UnimplementedOpcodeIsLogged. -/
theorem test_witness_fault :
    busRead (start [0x02] []) (start [0x02] []).pc ∈ unimplementedBytes := by
  decide

/-- CyclesFollowTheOpcodeMap, FlagsChangeOnlyByTheirWriters, RegistersChangeOnlyByTheirWriters and
OnlyStoringInstructionsWriteMemory: an instruction that answers a next state and is no writer. -/
theorem test_witness_exec :
    exec .nop busy = .next { busy with cyc := 2 } ∧ Instr.nop.mnemonic ∉ writersNZ ∧
    Instr.nop.mnemonic ∉ writersC ∧ Instr.nop.mnemonic ∉ controlTransfers := by
  exact ⟨rfl, by decide, by decide, by decide⟩

/-- BreakFlagIsSticky: a step with B set, and a BRK that sets it. -/
theorem test_witness_break :
    after { busy with flags := flagsOf 0 0 1 0 0 0 0 } (fun t => t.flags.b) = some true ∧
    busy.flags.b = false ∧ after (start [0x00] []) (fun t => t.flags.b) = some true ∧
    busRead (start [0x00] []) 0xC000 = 0x00 := by
  decide

/-- StepKeepsInvariant, StepLeavesVideoAlone and CellsUnderVicWindowNeverWritten: the step answers, also from reset,
whose first byte is a BRK. -/
theorem test_witness_steps :
    after busy (fun t => t.a) = some 0x80 ∧ after State.reset (fun t => t.sp) = some 0xFC := by
  decide

/-- HostOperationsKeepInvariant and FaultLogOnlyGrows: calls that answer. -/
theorem test_witness_host :
    hostCall RunParams.default (.render 0) busy = .next (busy, .nothing) ∧
    hostCall RunParams.default (.setProgramCounter 0xFFFF) busy = .next ({ busy with pc := 0xFFFF }, .nothing) ∧
    HostOp.render 0 ≠ .initialise := by
  exact ⟨rfl, rfl, by decide⟩

/-- UnimplementedOpcodeIsLogged: Faulted (R158) is false before a failed step and after a good one, true after a failed
step and still after another operation, and forgotten by initialize. -/
theorem test_witness_faulted :
    let p := RunParams.default
    let lastOf (ops : List HostOp) (s : State) : Option (Option Bool) :=
      match RunPoint.run p ops ⟨s, none⟩ with
      | .next u => some u.lastStep
      | .fault _ => none
      | .refused _ => none
    lastOf [] (start [0x02, 0xEA] []) = some none ∧ lastOf [.step] (start [0x02, 0xEA] []) = some (some false) ∧
    lastOf [.step, .readRegisters] (start [0x02, 0xEA] []) = some (some false) ∧
    lastOf [.step, .step] (start [0x02, 0xEA] []) = some (some true) ∧
    lastOf [.step, .initialise] (start [0x02, 0xEA] []) = some none ∧
    Faulted ⟨start [0x02] [], some false⟩ ∧ ¬ Faulted ⟨start [0x02] [], none⟩ := by
  decide

/-- CyclesFollowTheOpcodeMap: CYCLES is a parameter (R6), so another table gives another count. -/
theorem test_cycles_parameter :
    after { start [0xEA] [] with cycleTable := [(0xEA, 9)] } (fun t => t.cyc) = some 9 ∧
    after { start [0xEA] [] with cycleTable := [] } (fun t => t.cyc) = some 0 ∧
    (start [] []).baseCycles 0xEA = 2 ∧ (start [] []).baseCycles 0x00 = 7 ∧ (start [] []).baseCycles 0xFE = 7 := by
  decide

/-- ResetLeavesTheDefaults: initialize with parameters that all differ; the last entry for a cell or pixel counts. -/
theorem test_witness_initialise :
    let q : ResetParams := { ResetParams.default with
      pc := 1, sp := 2, a := 3, x := 4, y := 5, flags := flagsOf 1 0 1 0 1 0 1, ram := [(7, 1), (7, 2), (8, 3)],
      front := [(5, ⟨1, 2, 3, 4⟩)], back := [(400, ⟨5, 6, 7, 8⟩), (400, ⟨9, 9, 9, 9⟩)] }
    let t := initialised q busy
    (t.pc, t.sp, t.a, t.x, t.y) = (1, 2, 3, 4, 5) ∧ t.flags = flagsOf 1 0 1 0 1 0 1 ∧
    (ramAt t 7, ramAt t 8, ramAt t 9) = (2, 3, 0) ∧ t.front.pixel 5 0 = ⟨1, 2, 3, 4⟩ ∧
    t.back.pixel 0 1 = ⟨9, 9, 9, 9⟩ ∧ t.back.pixel 5 0 = unpaintedPixel := by
  decide

/-- One run has one set of parameters (R28): whatever happened between, a second initialize leaves what the first did. -/
theorem test_initialise_again :
    let p : RunParams := { RunParams.default with reset := { ResetParams.default with pc := 0xC123, a := 7, ram := [(9, 4)] } }
    let seen (ops : List HostOp) : Option (Addr × Byte × Byte) :=
      match RunPoint.run p ops ⟨busy, none⟩ with
      | .next u => some (u.state.pc, u.state.a, ramAt u.state 9)
      | .fault _ => none
      | .refused _ => none
    seen [.initialise] = some (0xC123, 7, 4) ∧
    seen [.initialise, .loadBytes 9 [5], .setProgramCounter 1, .initialise] = some (0xC123, 7, 4) ∧
    seen [.initialise, .loadBytes 9 [5], .setProgramCounter 1] = some (1, 7, 5) := by
  decide

/-- BusReadFollowsTheMap and ReadAfterWrite: the edges of every window. -/
theorem test_witness_regions :
    region 0x9FFF = .ram ∧ region 0xA000 = .basicRom ∧ region 0xBFFF = .basicRom ∧ region 0xC000 = .ram ∧
    region 0xCFFF = .ram ∧ region 0xD000 = .vicWindow ∧ region 0xD02F = .vicWindow ∧ region 0xD030 = .vicWindow ∧
    region 0xD031 = .ram ∧ region 0xDFFF = .ram ∧ region 0xE000 = .kernalRom ∧ region 0xFFFF = .kernalRom := by
  decide

/-- BusReadFollowsTheMap: each clause at an edge. -/
theorem test_witness_reads :
    busRead State.reset 0xD02F = State.reset.vic[47] ∧ busRead State.reset 0xD030 = Config.vicOorRead 0 ∧
    busRead State.reset 0xA000 = Config.basicRom 0 ∧ busRead State.reset 0xBFFF = Config.basicRom 0x1FFF ∧
    busRead State.reset 0xE000 = Config.kernalRom 0 ∧ busRead State.reset 0xFFFF = Config.kernalRom 0x1FFF ∧
    busRead State.reset 0xD031 = ramAt State.reset 0xD031 := by
  exact ⟨by decide, read_oor _, read_basic (by decide) (by decide), read_basic (by decide) (by decide),
    read_kernal (by decide) (by decide), read_kernal (by decide) (by decide), by decide⟩

/-- CanonicalMemoriesAreEqual. -/
theorem test_witness_canonical :
    Memory.wf [(3, 7), (65535, 1)] = true ∧ Memory.ofList [(0xFFFF, 1), (3, 7), (5, 2), (5, 0)] = [(3, 7), (65535, 1)] ∧
    Memory.wf [(3, 0)] = false ∧ Memory.wf [(7, 1), (3, 1)] = false ∧ Memory.wf [(65536, 1)] = false := by
  decide

/-- NextFetchSeesTheStore: PC in RAM, and PC in a ROM window. -/
theorem test_witness_nextFetch :
    region busy.pc = .ram ∧ region ({ busy with pc := 0xA000 } : State).pc = .basicRom := by
  decide

/-- SelfJumpIdles (V-CT-16). -/
theorem test_witness_selfJump :
    AtSelfJump (start [0x4C, 0x00, 0xC0] []) ∧ after (start [0x4C, 0x00, 0xC0] []) id =
      some { start [0x4C, 0x00, 0xC0] [] with cyc := 3 } ∧ (0xC000 : Addr) ≠ 0xD030 ∧
    (0xC000 : Addr) + 1 ≠ 0xD030 ∧ (0xC000 : Addr) + 2 ≠ 0xD030 := by
  decide

/-- LoadBytesWritesInOrder: both sides of its bound, and its clauses across the lower edge of the VIC window. -/
theorem test_witness_loadBytes :
    loadBytes 65535 [1, 2] busy = .refused (.loadOutOfRange 65535 2) ∧
    loadBytes 0xCFFF [7, 8] busy = .next (writeBytes 0xCFFF [7, 8] busy) ∧
    ramAt (writeBytes 0xCFFF [7, 8] busy) 0xCFFF = 7 ∧ ramAt (writeBytes 0xCFFF [7, 8] busy) 0xD000 = 0 ∧
    (writeBytes 0xCFFF [7, 8] busy).vic[0] = 8 ∧ ramAt (writeBytes 65535 [9] busy) 0xFFFF = 9 := by
  exact ⟨rfl, rfl, by decide, by decide, by decide, by decide⟩

/-- HostCallsAnswer: both sides of the program counter's bound. -/
theorem test_witness_setProgramCounter :
    hostCall RunParams.default (.setProgramCounter 0xFFFF) State.reset =
      .next ({ State.reset with pc := 0xFFFF }, .nothing) ∧
    hostCall RunParams.default (.setProgramCounter 0x10000) State.reset =
      .refused (.programCounterOutOfRange 0x10000) := by
  exact ⟨rfl, rfl⟩

/-- FrameIsPublishedAtTheWrap and WholeFramePaintsEveryPixel: the margins at both ends, the last pixel, the origin. -/
theorem test_witness_frame :
    Config.defaultVideo.wellFormed = true ∧
    ({ Config.defaultVideo with hBlankLeft := 104, vBlankTop := 32 } : Config.VideoParams).wellFormed = true ∧
    busy.front.wf = true ∧ rasterIndex busy = 0 ∧ busy.front.pixel 399 279 = ⟨1, 2, 3, 255⟩ := by
  decide

/-- The publish at the last raster position, and not before it. -/
theorem test_witness_publish :
    (advance { busy with rx := 503, ry := 311 }).back = busy.front ∧
    (advance { busy with rx := 502, ry := 311 }).back = busy.back ∧
    rasterIndex (advance { busy with rx := 503, ry := 311 }) = 0 := by
  decide

/-- PixelLayersInPriority: both sides of every edge of the content rectangle, and a sprite pixel. -/
theorem test_witness_layers :
    inContent 39 40 = false ∧ inContent 40 39 = false ∧ inContent 40 40 = true ∧ inContent 359 239 = true ∧
    inContent 360 239 = false ∧ inContent 359 240 = false ∧
    firstOpaque Config.defaultVideo (spriteState 0x03) 0 0 = some 0 ∧
    firstOpaque Config.defaultVideo (spriteState 0x02) 0 0 = some 1 ∧
    firstOpaque Config.defaultVideo (spriteState 0x00) 0 0 = none := by
  decide

/-- CharacterLayerReadsCharRom: the last cell. -/
theorem test_witness_character :
    charBit State.reset 319 199 = (Config.charRom 7).getLsbD 0 := by
  rfl

/-- SpriteLayerReadsItsBitmap: opaque at the box's corner, clear beside it. -/
theorem test_witness_sprite :
    spriteBit Config.defaultVideo (spriteState 0x01) 0 0 0 = true ∧
    spriteBit Config.defaultVideo (spriteState 0x01) 0 1 0 = false ∧
    spriteBit Config.defaultVideo (spriteState 0x01) 1 0 0 = false := by
  decide

end Sys2Proof.Machine.Tests
end

section
/-! PROOFS. The reads of the Bus (20_memory.md): one rule per window of R32's priority order, and the map they make. -/

namespace Sys2Proof.Machine

/-! ### A VIC read, below offset 48 and at it (R35) -/

theorem vicRead_register (s : State) {k : Nat} (h : k < 48) : vicRead s k = s.vic[k] :=
  dif_pos h

theorem vicRead_draw (s : State) : vicRead s 48 = Config.vicOorRead s.draws :=
  dif_neg (Nat.lt_irrefl 48)

/-! ### A read, window by window (R32) -/

/-- In the VIC window the read goes to the register that the address names. -/
theorem busRead_vicWindow (s : State) {a : Addr} {k : Nat} (hk : k ≤ 48) (ha : a.toNat = 0xD000 + k) :
    busRead s a = vicRead s k := by
  have hw : InVicWindow a := by omega
  simp only [busRead, region_vicWindow.mpr hw, (vicOffset_eq hw).mpr ha]

theorem busRead_basicRom (s : State) {a : Addr} {k : BitVec 13} (ha : a.toNat = 0xA000 + k.toNat) :
    busRead s a = Config.basicRom k := by
  have hr : region a = .basicRom := region_basicRom.mpr (by omega)
  simp only [busRead, hr, ha, Nat.add_sub_cancel_left, BitVec.ofNat_toNat, BitVec.setWidth_eq]

theorem busRead_kernalRom (s : State) {a : Addr} {k : BitVec 13} (ha : a.toNat = 0xE000 + k.toNat) :
    busRead s a = Config.kernalRom k := by
  have hr : region a = .kernalRom := region_kernalRom.mpr (by omega)
  simp only [busRead, hr, ha, Nat.add_sub_cancel_left, BitVec.ofNat_toNat, BitVec.setWidth_eq]

/-- An address outside the three windows is in one of the gaps between them, which RAM serves. -/
theorem region_ram_of_outside {a : Addr} (hv : ¬ InVicWindow a) (hb : ¬ (0xA000 ≤ a.toNat ∧ a.toNat ≤ 0xBFFF))
    (hk : ¬ 0xE000 ≤ a.toNat) : region a = .ram :=
  region_ram.mpr (by omega)

/-- Settles O42: each clause is the rule of its window; $D030 is offset 48 of the VIC window. -/
theorem busReadFollowsTheMap : Obligations.BusReadFollowsTheMap := by
  intro s a
  refine ⟨fun k hk ha => ?_, fun ha => ?_, fun _ => busRead_basicRom s, fun _ => busRead_kernalRom s,
    fun hv hb hk => busRead_ram (region_ram_of_outside hv hb hk)⟩
  · rw [busRead_vicWindow s hk.le ha, vicRead_register s hk]
  · rw [busRead_vicWindow s (Nat.le_refl 48) ha, vicRead_draw]

end Sys2Proof.Machine
end

section
/-! PROOFS. The jumps (30_encoding.md, 44_control_transfer.md): a three-byte form is read off its row of the opcode map,
and the pointer of the indirect form is read in the state before the jump, byte by byte. -/

namespace Sys2Proof.Machine

/-- The row of the opcode map under `op` says what the three bytes decode to and what they cost (R49, R55, R59). -/
theorem isForm_threeByte {op : Byte} {row : OpcodeRow} {make : Addr → Instr} (hrow : lookup op = some row)
    (hf : row.format = .f3 make) (lo hi : Byte) : IsForm [op, lo, hi] (make (hiLo hi lo)) row.cycles := by
  obtain ⟨hop, hs⟩ := lookup_some hrow
  simp only [OpcodeRow.Sound, hf] at hs
  obtain ⟨hmake, -, -, -⟩ := hs (hiLo hi lo)
  constructor
  · intro rest
    simp only [List.cons_append, List.nil_append, decode, hrow, hf]
  · apply defaultCycles_eq
    rw [hmake, hop, hrow, Option.map_some]

/-- A read does not change what another address answers: only $D030 answers a draw, and only a read of it uses one
up (R35). -/
theorem busRead_afterRead_of_ne (s : State) {a b : Addr} (h : a ≠ b) : busRead (afterRead s a) b = busRead s b := by
  by_cases hb : b = 0xD030
  · have ha : a ≠ 0xD030 := fun ha => h (ha.trans hb.symm)
    rw [afterRead, if_neg ha]
  · exact busRead_congr_of_ne (afterRead_ram s a) (afterRead_vic s a) hb

/-! ### The pointer of JMP (ind) (R52, R53) -/

@[simp] theorem wrapInPage_hiLo (hi lo : Byte) : wrapInPage (hiLo hi lo) = hiLo hi (lo + 1) := by
  rw [wrapInPage, hiByte_hiLo, loByte_hiLo]

/-- The two bytes of a pointer are at different addresses, also where the second wraps within the page. -/
theorem ne_wrapInPage (ptr : Addr) : ptr ≠ wrapInPage ptr := by
  intro h
  have hlo : loByte ptr = loByte ptr + 1 := by
    simpa only [wrapInPage, loByte_hiLo] using congrArg loByte h
  bv_omega

/-- Both bytes of the target are those the Bus answers before the jump. -/
theorem indirectTarget_eq (s : State) (ptr : Addr) :
    indirectTarget s ptr = hiLo (busRead s (wrapInPage ptr)) (busRead s ptr) := by
  rw [indirectTarget, busRead_afterRead_of_ne s (ne_wrapInPage ptr)]

/-- Reading the pointer uses up the draws of its two bytes and changes nothing else. -/
theorem afterIndirect_eq (s : State) (ptr : Addr) :
    afterIndirect s ptr = { s with draws := s.draws + (drawsAt ptr + drawsAt (wrapInPage ptr)) } := by
  simp only [afterIndirect, afterRead_eq, Nat.add_assoc]

/-! ### The two jumps (R100) -/

theorem exec_jmpAbs (adr : Addr) (s : State) :
    exec (.jmpAbs adr) s = .next { s with pc := adr, cyc := s.cyc + s.baseCycles 0x4C } := rfl

theorem exec_jmpInd (ptr : Addr) (s : State) :
    exec (.jmpInd ptr) s = .next { s with
      pc := hiLo (busRead s (wrapInPage ptr)) (busRead s ptr), cyc := s.cyc + s.baseCycles 0x6C,
      draws := s.draws + (drawsAt ptr + drawsAt (wrapInPage ptr)) } := by
  change execJmpInd ptr s = _
  rw [execJmpInd, indirectTarget_eq, afterIndirect_eq]
  rfl

/-- Settles O17: each form is its row of the opcode map, and the wrapped pointer address keeps the high byte. -/
theorem jumpsSetTheProgramCounter : Obligations.JumpsSetTheProgramCounter := by
  intro lo hi s
  refine ⟨⟨?_, exec_jmpAbs (hiLo hi lo) s⟩, ?_, ?_⟩
  · exact isForm_threeByte (row := ⟨0x4C, .jmp, .abs, 3, false, .f3 .jmpAbs⟩) rfl rfl lo hi
  · exact isForm_threeByte (row := ⟨0x6C, .jmp, .ind, 5, false, .f3 .jmpInd⟩) rfl rfl lo hi
  · rw [exec_jmpInd, wrapInPage_hiLo]

end Sys2Proof.Machine
end

section
/-! PROOFS. Loads, stores and transfers (40_load_store_transfer.md): every form of a list is a row of the opcode map, and
runs the one shared operation of its mnemonic on its own operand, with the base count at its own opcode. -/

namespace Sys2Proof.Machine

/-! ### Forms, read off their row of the opcode map (R49, R55, R59) -/

section Rows

/-! The row stands written out in the hypothesis, so that `rfl` finds the row of a given opcode byte in the map. -/

variable {op : Byte} {m : Mnemonic} {mode : Mode} {base : Nat} {cross : Bool}

theorem isForm_of_row_f1 {i : Instr} (h : lookup op = some ⟨op, m, mode, base, cross, .f1 i⟩) :
    IsForm [op] i base := by
  obtain ⟨hi, -, -, -⟩ := (lookup_some h).2
  constructor
  · intro rest
    simp only [List.cons_append, List.nil_append, decode, h]
  · apply defaultCycles_eq
    rw [hi, h, Option.map_some]

theorem isForm_of_row_f2 {make : Byte → Instr} (h : lookup op = some ⟨op, m, mode, base, cross, .f2 make⟩) (b : Byte) :
    IsForm [op, b] (make b) base := by
  obtain ⟨hmake, -, -, -⟩ := (lookup_some h).2 b
  constructor
  · intro rest
    simp only [List.cons_append, List.nil_append, decode, h]
  · apply defaultCycles_eq
    rw [hmake, h, Option.map_some]

theorem isForm_of_row_f3 {make : Addr → Instr} (h : lookup op = some ⟨op, m, mode, base, cross, .f3 make⟩)
    (lo hi : Byte) : IsForm [op, lo, hi] (make (hiLo hi lo)) base :=
  isForm_threeByte h rfl lo hi

end Rows

theorem isForm_of_mem_ldaForms (b lo hi : Byte) : ∀ f ∈ ldaForms b lo hi, IsForm f.bytes f.instr f.base := by
  simp only [ldaForms, List.forall_mem_cons]
  exact ⟨isForm_of_row_f2 rfl b, isForm_of_row_f2 rfl b, isForm_of_row_f2 rfl b, isForm_of_row_f3 rfl lo hi,
    isForm_of_row_f3 rfl lo hi, isForm_of_row_f3 rfl lo hi, isForm_of_row_f2 rfl b, isForm_of_row_f2 rfl b,
    List.forall_mem_nil _⟩

theorem isForm_of_mem_ldxForms (b lo hi : Byte) : ∀ f ∈ ldxForms b lo hi, IsForm f.bytes f.instr f.base := by
  simp only [ldxForms, List.forall_mem_cons]
  exact ⟨isForm_of_row_f2 rfl b, isForm_of_row_f2 rfl b, isForm_of_row_f2 rfl b, isForm_of_row_f3 rfl lo hi,
    isForm_of_row_f3 rfl lo hi, List.forall_mem_nil _⟩

theorem isForm_of_mem_ldyForms (b lo hi : Byte) : ∀ f ∈ ldyForms b lo hi, IsForm f.bytes f.instr f.base := by
  simp only [ldyForms, List.forall_mem_cons]
  exact ⟨isForm_of_row_f2 rfl b, isForm_of_row_f2 rfl b, isForm_of_row_f2 rfl b, isForm_of_row_f3 rfl lo hi,
    isForm_of_row_f3 rfl lo hi, List.forall_mem_nil _⟩

theorem isForm_of_mem_staForms (b lo hi : Byte) : ∀ f ∈ staForms b lo hi, IsForm f.bytes f.instr f.base := by
  simp only [staForms, List.forall_mem_cons]
  exact ⟨isForm_of_row_f2 rfl b, isForm_of_row_f2 rfl b, isForm_of_row_f3 rfl lo hi, isForm_of_row_f3 rfl lo hi,
    isForm_of_row_f3 rfl lo hi, isForm_of_row_f2 rfl b, isForm_of_row_f2 rfl b, List.forall_mem_nil _⟩

theorem isForm_of_mem_stxForms (b lo hi : Byte) : ∀ f ∈ stxForms b lo hi, IsForm f.bytes f.instr f.base := by
  simp only [stxForms, List.forall_mem_cons]
  exact ⟨isForm_of_row_f2 rfl b, isForm_of_row_f2 rfl b, isForm_of_row_f3 rfl lo hi, List.forall_mem_nil _⟩

theorem isForm_of_mem_styForms (b lo hi : Byte) : ∀ f ∈ styForms b lo hi, IsForm f.bytes f.instr f.base := by
  simp only [styForms, List.forall_mem_cons]
  exact ⟨isForm_of_row_f2 rfl b, isForm_of_row_f2 rfl b, isForm_of_row_f3 rfl lo hi, List.forall_mem_nil _⟩

/-! ### What the forms of a list run (R61 to R66) -/

theorem exec_of_mem_ldaForms (b lo hi : Byte) (s : State) :
    ∀ f ∈ ldaForms b lo hi, exec f.instr s = .next (loadA f.source (s.baseCycles f.instr.opcode) s) := by
  simp only [ldaForms, List.forall_mem_cons]
  exact ⟨rfl, rfl, rfl, rfl, rfl, rfl, rfl, rfl, List.forall_mem_nil _⟩

theorem exec_of_mem_ldxForms (b lo hi : Byte) (s : State) :
    ∀ f ∈ ldxForms b lo hi, exec f.instr s = .next (loadX f.source (s.baseCycles f.instr.opcode) s) := by
  simp only [ldxForms, List.forall_mem_cons]
  exact ⟨rfl, rfl, rfl, rfl, rfl, List.forall_mem_nil _⟩

theorem exec_of_mem_ldyForms (b lo hi : Byte) (s : State) :
    ∀ f ∈ ldyForms b lo hi, exec f.instr s = .next (loadY f.source (s.baseCycles f.instr.opcode) s) := by
  simp only [ldyForms, List.forall_mem_cons]
  exact ⟨rfl, rfl, rfl, rfl, rfl, List.forall_mem_nil _⟩

theorem exec_of_mem_staForms (b lo hi : Byte) (s : State) :
    ∀ f ∈ staForms b lo hi, exec f.instr s = .next (store f.dest s.a (s.baseCycles f.instr.opcode) s) := by
  simp only [staForms, List.forall_mem_cons]
  exact ⟨rfl, rfl, rfl, rfl, rfl, rfl, rfl, List.forall_mem_nil _⟩

theorem exec_of_mem_stxForms (b lo hi : Byte) (s : State) :
    ∀ f ∈ stxForms b lo hi, exec f.instr s = .next (store f.dest s.x (s.baseCycles f.instr.opcode) s) := by
  simp only [stxForms, List.forall_mem_cons]
  exact ⟨rfl, rfl, rfl, List.forall_mem_nil _⟩

theorem exec_of_mem_styForms (b lo hi : Byte) (s : State) :
    ∀ f ∈ styForms b lo hi, exec f.instr s = .next (store f.dest s.y (s.baseCycles f.instr.opcode) s) := by
  simp only [styForms, List.forall_mem_cons]
  exact ⟨rfl, rfl, rfl, List.forall_mem_nil _⟩

/-! ### The model's flags and page-cross cycle, in exact arithmetic (R12, R59) -/

theorem setNZ_eq_nzOf (f : Flags) (v : Byte) : f.setNZ v = nzOf f v := by
  have hn : v.getLsbD 7 = decide (128 ≤ v.toNat) := v.msb_eq_getLsbD_last.symm.trans v.msb_eq_decide
  have hz : v = 0 ↔ v.toNat = 0 := BitVec.toNat_inj.symm
  simp only [Flags.setNZ, nzOf, hn, hz]

theorem hiByte_toNat (a : Addr) : (hiByte a).toNat = a.toNat / 256 := by
  have h := hiLo_toNat (hiByte a) (loByte a)
  rw [hiLo_hiByte_loByte] at h
  have := (loByte a).isLt
  omega

theorem page_eq_iff (a b : Addr) : page a = page b ↔ a.toNat / 256 = b.toNat / 256 := by
  rw [page, page, ← BitVec.toNat_inj, hiByte_toNat, hiByte_toNat]

/-- Only abx, aby and izy index by the 16-bit sum, so only there the page can differ from the base's. -/
theorem extra_eq_pageCrossCost (o : Source) (s : State) : o.extra s = pageCrossCost o s := by
  cases o with
  | imm v => rfl
  | mem m =>
    cases m <;> simp [Source.extra, pageCrossCost, MemOperand.crosses, MemOperand.ea, MemOperand.base, page_eq_iff]

/-! ### The one write of a store (R54) -/

theorem store_writesOneByte {s : State} (hwf : s.ram.wf = true) (o : MemOperand) (v : Byte) (base : Nat) :
    SameButMemory { s with cyc := s.cyc + base } (store o v base s) ∧ StoredByte s (store o v base s) (o.ea s) v := by
  rw [store_eq]
  exact ⟨rfl, stored_of_after hwf (o.ea s) v rfl rfl⟩

/-! ### The three statements -/

/-- Settles O1: each form is its row of the opcode map and runs the load of its register. -/
theorem loadsWriteTheirRegister : Obligations.LoadsWriteTheirRegister := by
  intro b lo hi s
  refine ⟨fun f hf => ⟨isForm_of_mem_ldaForms b lo hi f hf, ?_⟩, fun f hf => ⟨isForm_of_mem_ldxForms b lo hi f hf, ?_⟩,
    fun f hf => ⟨isForm_of_mem_ldyForms b lo hi f hf, ?_⟩⟩
  · rw [exec_of_mem_ldaForms b lo hi s f hf, loadA_eq, setNZ_eq_nzOf, extra_eq_pageCrossCost, afterReading]
  · rw [exec_of_mem_ldxForms b lo hi s f hf, loadX_eq, setNZ_eq_nzOf, extra_eq_pageCrossCost, afterReading]
  · rw [exec_of_mem_ldyForms b lo hi s f hf, loadY_eq, setNZ_eq_nzOf, extra_eq_pageCrossCost, afterReading]

/-- Settles O2: each form is its row of the opcode map and stores its register at its own ea. -/
theorem storesWriteOneByte : Obligations.StoresWriteOneByte := by
  intro b lo hi s hwf
  exact ⟨
    fun f hf => ⟨isForm_of_mem_staForms b lo hi f hf, _, exec_of_mem_staForms b lo hi s f hf,
      store_writesOneByte hwf f.dest s.a _⟩,
    fun f hf => ⟨isForm_of_mem_stxForms b lo hi f hf, _, exec_of_mem_stxForms b lo hi s f hf,
      store_writesOneByte hwf f.dest s.x _⟩,
    fun f hf => ⟨isForm_of_mem_styForms b lo hi f hf, _, exec_of_mem_styForms b lo hi s f hf,
      store_writesOneByte hwf f.dest s.y _⟩⟩

/-- Settles O3: each transfer is its row of the opcode map; all but TXS set N and Z from the byte copied. -/
theorem transfersCopyOneRegister : Obligations.TransfersCopyOneRegister := by
  intro s
  simp only [← setNZ_eq_nzOf]
  exact ⟨⟨isForm_of_row_f1 rfl, rfl⟩, ⟨isForm_of_row_f1 rfl, rfl⟩, ⟨isForm_of_row_f1 rfl, rfl⟩,
    ⟨isForm_of_row_f1 rfl, rfl⟩, ⟨isForm_of_row_f1 rfl, rfl⟩, ⟨isForm_of_row_f1 rfl, rfl⟩⟩

end Sys2Proof.Machine
end

section
/-! PROOFS. The stack instructions (41_stack.md): a push is one write in the stack page, which RAM serves, and a pull reads
the RAM cell that SP names once it has moved up. -/

namespace Sys2Proof.Machine

/-! ### The stack page and the status byte, in exact arithmetic (R15, R19) -/

theorem stackCell_eq_stackAddr (p : Byte) : stackCell p = stackAddr p := by
  have hp := p.isLt
  apply BitVec.eq_of_toNat_eq
  rw [stackAddr_toNat, stackCell, BitVec.toNat_ofNat, Nat.mod_eq_of_lt (by omega)]

/-- Packing puts each flag but B at its weight, and 32 + 16 for bits 5 and 4. -/
theorem statusByte_eq_pack (f : Flags) : statusByte f = f.pack := by
  obtain ⟨n, v, b, d, i, z, c⟩ := f
  simp only [statusByte, Flags.pack]
  revert n v d i z c
  decide

/-! ### One push and one pull (R73, R74) -/

/-- What a push stores is what its one write stores: the moves of SP and CYC touch no memory. -/
theorem push_writesOneByte {s : State} (hwf : s.ram.wf = true) (v : Byte) (base : Nat) :
    SameButMemory { s with sp := s.sp - 1, cyc := s.cyc + base } ((push v s).addCycles base) ∧
    StoredByte s ((push v s).addCycles base) (stackCell s.sp) v := by
  rw [stackCell_eq_stackAddr]
  constructor
  · rw [push_eq]
    rfl
  · exact busWrite_stored hwf (stackAddr s.sp) v

theorem pulled_eq_ramAt_stackCell (s : State) : pulled s = ramAt s (stackCell (s.sp + 1)) := by
  rw [pulled_eq, stackCell_eq_stackAddr, ramAt]

/-! ### What the four instructions run (R75 to R78) -/

theorem exec_pha (s : State) : exec .pha s = .next ((push s.a s).addCycles (s.baseCycles 0x48)) := rfl

theorem exec_php (s : State) : exec .php s = .next ((push (statusByte s.flags) s).addCycles (s.baseCycles 0x08)) := by
  rw [statusByte_eq_pack]
  rfl

theorem exec_pla (s : State) : exec .pla s = .next { s with
    sp := s.sp + 1, a := pulled s, flags := nzOf s.flags (pulled s), cyc := s.cyc + s.baseCycles 0x68 } := by
  rw [← setNZ_eq_nzOf]
  rfl

/-- `flagsFrom` is the model's `unpack`: neither names B, so both keep it (R20). -/
theorem exec_plp (s : State) : exec .plp s = .next { s with
    sp := s.sp + 1, flags := flagsFrom s.flags (pulled s), cyc := s.cyc + s.baseCycles 0x28 } := rfl

/-! ### The two statements -/

/-- Settles O4: both instructions are one push, of A and of the status byte. -/
theorem pushesStoreAndDecrement : Obligations.PushesStoreAndDecrement := by
  intro s hwf
  exact ⟨⟨isForm_of_row_f1 rfl, _, exec_pha s, push_writesOneByte hwf s.a _⟩,
    ⟨isForm_of_row_f1 rfl, _, exec_php s, push_writesOneByte hwf (statusByte s.flags) _⟩⟩

/-- Settles O5: both instructions are one pull, of A and of the flags. -/
theorem pullsIncrementAndRead : Obligations.PullsIncrementAndRead := by
  intro s
  rw [← pulled_eq_ramAt_stackCell]
  exact ⟨⟨isForm_of_row_f1 rfl, exec_pla s⟩, ⟨isForm_of_row_f1 rfl, exec_plp s⟩⟩

end Sys2Proof.Machine
end

section
/-! PROOFS. Arithmetic, logic, compare, increment and decrement (42_arith_logic.md): every form of a list runs the one
shared operation of its mnemonic, and the operation's result and flags are those of the rule in exact arithmetic. -/

namespace Sys2Proof.Machine

/-! ### Bits of a byte, in exact arithmetic (R12) -/

theorem getLsbD_seven_eq_decide (v : Byte) : v.getLsbD 7 = decide (128 ≤ v.toNat) :=
  v.msb_eq_getLsbD_last.symm.trans v.msb_eq_decide

theorem getLsbD_six_eq_decide (v : Byte) : v.getLsbD 6 = decide (64 ≤ v.toNat % 128) := by
  have hbit : v.getLsbD 6 = decide (v.toNat / 64 % 2 = 1) := Nat.testBit_eq_decide_div_mod_eq
  have hiff : v.toNat / 64 % 2 = 1 ↔ 64 ≤ v.toNat % 128 := by omega
  rw [hbit, decide_eq_decide.mpr hiff]

theorem and_0x80_ne_zero_iff_msb (v : Byte) : v &&& 0x80 ≠ 0 ↔ v.msb = true := by
  have hmask : v &&& 0x80 = if v.getLsbD 7 then 0x80 else 0 := BitVec.and_twoPow v 7
  rw [hmask, show v.getLsbD 7 = v.msb from v.msb_eq_getLsbD_last.symm]
  cases v.msb <;> decide

theorem ofNat_toNat_add (v : Byte) (k : Nat) : BitVec.ofNat 8 (v.toNat + k) = v + BitVec.ofNat 8 k := by
  rw [BitVec.ofNat_add, BitVec.ofNat_toNat, BitVec.setWidth_eq]

/-- Modulo 256, adding 255 subtracts one. -/
theorem ofNat_toNat_add_255 (v : Byte) : BitVec.ofNat 8 (v.toNat + 255) = v - 1 := by
  rw [ofNat_toNat_add, BitVec.sub_eq_add_neg]
  rfl

/-! ### ADC and SBC in exact arithmetic (R80, R81) -/

/-- The mask of R80 selects bit 7: both operands differ in sign from the result. -/
theorem overflowAdd_eq_signs (a m rb : Byte) :
    overflowAdd a m rb = (a.msb == m.msb && rb.msb != a.msb) := by
  simp only [overflowAdd, and_0x80_ne_zero_iff_msb, BitVec.msb_and, BitVec.msb_xor, Bool.decide_eq_true]
  cases a.msb <;> cases m.msb <;> cases rb.msb <;> rfl

/-- The mask of R81 selects bit 7: A differs in sign from M and from the result. -/
theorem overflowSub_eq_signs (a m rb : Byte) :
    overflowSub a m rb = (a.msb != m.msb && rb.msb != a.msb) := by
  simp only [overflowSub, and_0x80_ne_zero_iff_msb, BitVec.msb_and, BitVec.msb_xor, Bool.decide_eq_true]
  cases a.msb <;> cases m.msb <;> cases rb.msb <;> rfl

/-- The complement of R81, as `simp` leaves its value. -/
theorem toNat_xor_255 (m : Byte) : m.toNat ^^^ 255 = 255 - m.toNat := by
  have hnot : m ^^^ 0xFF = ~~~m := BitVec.xor_allOnes
  simpa using congrArg BitVec.toNat hnot

/-- Two nibbles given as exact remainders modulo 16 make the byte of their weighted sum. -/
theorem packNibbles_emod (hi lo : Int) :
    packNibbles (hi % 16).toNat (lo % 16).toNat = BitVec.ofInt 8 (16 * (hi % 16) + lo % 16) := by
  have hsum : 16 * (hi % 16) + lo % 16 =
      (((hi % 16).toNat % 16 * 16 + (lo % 16).toNat % 16 : Nat) : Int) := by omega
  rw [packNibbles, hsum, BitVec.ofInt_natCast]

theorem adc_eq_adcOf (f : Flags) (a m : Byte) : adc f a m = adcOf f a m := by
  cases hd : f.d with
  | false => simp [adc, adcOf, hd, adcBinary, overflowAdd_eq_signs]
  | true => simp [adc, adcOf, hd, adcDecimal, packNibbles, Nat.mul_comm]

theorem sbc_eq_sbcOf (f : Flags) (a m : Byte) : sbc f a m = sbcOf f a m := by
  cases hd : f.d with
  | false => simp [sbc, sbcOf, hd, sbcBinary, overflowSub_eq_signs, toNat_xor_255]
  | true => simp [sbc, sbcOf, hd, sbcDecimal, packNibbles_emod]

theorem setArith_eq_arithFlags (f : Flags) (u : Alu) : f.setArith u = arithFlags f u :=
  setNZ_eq_nzOf { f with c := u.c, v := u.v } u.r

/-! ### The flags of a compare and of BIT in exact arithmetic (R85, R86) -/

theorem compare_eq_compareFlags (f : Flags) (r m : Byte) : f.compare r m = compareFlags f r m := by
  have hz : r = m ↔ r.toNat = m.toNat := BitVec.toNat_inj.symm
  have hn : (r - m).toNat = (r.toNat + 256 - m.toNat) % 256 := by bv_omega
  simp only [Flags.compare, compareFlags, getLsbD_seven_eq_decide, hz, hn]

theorem bitTest_eq (f : Flags) (a m : Byte) : f.bitTest a m = { f with
    n := decide (128 ≤ m.toNat), v := decide (64 ≤ m.toNat % 128), z := decide ((a &&& m).toNat = 0) } := by
  have hz : a &&& m = 0 ↔ (a &&& m).toNat = 0 := BitVec.toNat_inj.symm
  simp only [Flags.bitTest, getLsbD_seven_eq_decide, getLsbD_six_eq_decide, hz]

/-! ### What the forms of a list run (R80 to R91) -/

/-- The form is a row of the opcode map, and runs `operation` on its own source with the base count at its own opcode. -/
structure ReadForm.Runs (f : ReadForm) (operation : Source → Nat → State → State) : Prop where
  isForm : IsForm f.bytes f.instr f.base
  exec_eq : ∀ s, exec f.instr s = .next (operation f.source (s.baseCycles f.instr.opcode) s)

/-- The form is a row of the opcode map, and runs `operation` on its own memory operand with the base count at its own
opcode. -/
structure WriteForm.Runs (f : WriteForm) (operation : MemOperand → Nat → State → State) : Prop where
  isForm : IsForm f.bytes f.instr f.base
  exec_eq : ∀ s, exec f.instr s = .next (operation f.dest (s.baseCycles f.instr.opcode) s)

section Lists

variable (b lo hi : Byte)

theorem adcForms_run : ∀ f ∈ adcForms b lo hi, f.Runs addWithCarry := by
  simp only [adcForms, List.forall_mem_cons]
  exact ⟨⟨isForm_of_row_f2 rfl b, fun _ => rfl⟩, ⟨isForm_of_row_f2 rfl b, fun _ => rfl⟩,
    ⟨isForm_of_row_f2 rfl b, fun _ => rfl⟩, ⟨isForm_of_row_f3 rfl lo hi, fun _ => rfl⟩,
    ⟨isForm_of_row_f3 rfl lo hi, fun _ => rfl⟩, ⟨isForm_of_row_f3 rfl lo hi, fun _ => rfl⟩,
    ⟨isForm_of_row_f2 rfl b, fun _ => rfl⟩, ⟨isForm_of_row_f2 rfl b, fun _ => rfl⟩, List.forall_mem_nil _⟩

theorem sbcForms_run : ∀ f ∈ sbcForms b lo hi, f.Runs subWithBorrow := by
  simp only [sbcForms, List.forall_mem_cons]
  exact ⟨⟨isForm_of_row_f2 rfl b, fun _ => rfl⟩, ⟨isForm_of_row_f2 rfl b, fun _ => rfl⟩,
    ⟨isForm_of_row_f2 rfl b, fun _ => rfl⟩, ⟨isForm_of_row_f3 rfl lo hi, fun _ => rfl⟩,
    ⟨isForm_of_row_f3 rfl lo hi, fun _ => rfl⟩, ⟨isForm_of_row_f3 rfl lo hi, fun _ => rfl⟩,
    ⟨isForm_of_row_f2 rfl b, fun _ => rfl⟩, ⟨isForm_of_row_f2 rfl b, fun _ => rfl⟩, List.forall_mem_nil _⟩

theorem andForms_run : ∀ f ∈ andForms b lo hi, f.Runs (logic (· &&& ·)) := by
  simp only [andForms, List.forall_mem_cons]
  exact ⟨⟨isForm_of_row_f2 rfl b, fun _ => rfl⟩, ⟨isForm_of_row_f2 rfl b, fun _ => rfl⟩,
    ⟨isForm_of_row_f2 rfl b, fun _ => rfl⟩, ⟨isForm_of_row_f3 rfl lo hi, fun _ => rfl⟩,
    ⟨isForm_of_row_f3 rfl lo hi, fun _ => rfl⟩, ⟨isForm_of_row_f3 rfl lo hi, fun _ => rfl⟩,
    ⟨isForm_of_row_f2 rfl b, fun _ => rfl⟩, ⟨isForm_of_row_f2 rfl b, fun _ => rfl⟩, List.forall_mem_nil _⟩

theorem oraForms_run : ∀ f ∈ oraForms b lo hi, f.Runs (logic (· ||| ·)) := by
  simp only [oraForms, List.forall_mem_cons]
  exact ⟨⟨isForm_of_row_f2 rfl b, fun _ => rfl⟩, ⟨isForm_of_row_f2 rfl b, fun _ => rfl⟩,
    ⟨isForm_of_row_f2 rfl b, fun _ => rfl⟩, ⟨isForm_of_row_f3 rfl lo hi, fun _ => rfl⟩,
    ⟨isForm_of_row_f3 rfl lo hi, fun _ => rfl⟩, ⟨isForm_of_row_f3 rfl lo hi, fun _ => rfl⟩,
    ⟨isForm_of_row_f2 rfl b, fun _ => rfl⟩, ⟨isForm_of_row_f2 rfl b, fun _ => rfl⟩, List.forall_mem_nil _⟩

theorem eorForms_run : ∀ f ∈ eorForms b lo hi, f.Runs (logic (· ^^^ ·)) := by
  simp only [eorForms, List.forall_mem_cons]
  exact ⟨⟨isForm_of_row_f2 rfl b, fun _ => rfl⟩, ⟨isForm_of_row_f2 rfl b, fun _ => rfl⟩,
    ⟨isForm_of_row_f2 rfl b, fun _ => rfl⟩, ⟨isForm_of_row_f3 rfl lo hi, fun _ => rfl⟩,
    ⟨isForm_of_row_f3 rfl lo hi, fun _ => rfl⟩, ⟨isForm_of_row_f3 rfl lo hi, fun _ => rfl⟩,
    ⟨isForm_of_row_f2 rfl b, fun _ => rfl⟩, ⟨isForm_of_row_f2 rfl b, fun _ => rfl⟩, List.forall_mem_nil _⟩

theorem bitForms_run : ∀ f ∈ bitForms b lo hi, f.Runs testBits := by
  simp only [bitForms, List.forall_mem_cons]
  exact ⟨⟨isForm_of_row_f2 rfl b, fun _ => rfl⟩, ⟨isForm_of_row_f3 rfl lo hi, fun _ => rfl⟩, List.forall_mem_nil _⟩

theorem cmpForms_run : ∀ f ∈ cmpForms b lo hi, f.Runs (fun o base s => compareWith s.a o base s) := by
  simp only [cmpForms, List.forall_mem_cons]
  exact ⟨⟨isForm_of_row_f2 rfl b, fun _ => rfl⟩, ⟨isForm_of_row_f2 rfl b, fun _ => rfl⟩,
    ⟨isForm_of_row_f2 rfl b, fun _ => rfl⟩, ⟨isForm_of_row_f3 rfl lo hi, fun _ => rfl⟩,
    ⟨isForm_of_row_f3 rfl lo hi, fun _ => rfl⟩, ⟨isForm_of_row_f3 rfl lo hi, fun _ => rfl⟩,
    ⟨isForm_of_row_f2 rfl b, fun _ => rfl⟩, ⟨isForm_of_row_f2 rfl b, fun _ => rfl⟩, List.forall_mem_nil _⟩

theorem cpxForms_run : ∀ f ∈ cpxForms b lo hi, f.Runs (fun o base s => compareWith s.x o base s) := by
  simp only [cpxForms, List.forall_mem_cons]
  exact ⟨⟨isForm_of_row_f2 rfl b, fun _ => rfl⟩, ⟨isForm_of_row_f2 rfl b, fun _ => rfl⟩,
    ⟨isForm_of_row_f3 rfl lo hi, fun _ => rfl⟩, List.forall_mem_nil _⟩

theorem cpyForms_run : ∀ f ∈ cpyForms b lo hi, f.Runs (fun o base s => compareWith s.y o base s) := by
  simp only [cpyForms, List.forall_mem_cons]
  exact ⟨⟨isForm_of_row_f2 rfl b, fun _ => rfl⟩, ⟨isForm_of_row_f2 rfl b, fun _ => rfl⟩,
    ⟨isForm_of_row_f3 rfl lo hi, fun _ => rfl⟩, List.forall_mem_nil _⟩

theorem incForms_run : ∀ f ∈ incForms b lo hi, f.Runs (addToMemory (BitVec.ofNat 8 1)) := by
  simp only [incForms, List.forall_mem_cons]
  exact ⟨⟨isForm_of_row_f2 rfl b, fun _ => rfl⟩, ⟨isForm_of_row_f2 rfl b, fun _ => rfl⟩,
    ⟨isForm_of_row_f3 rfl lo hi, fun _ => rfl⟩, ⟨isForm_of_row_f3 rfl lo hi, fun _ => rfl⟩, List.forall_mem_nil _⟩

theorem decForms_run : ∀ f ∈ decForms b lo hi, f.Runs (addToMemory (BitVec.ofNat 8 255)) := by
  simp only [decForms, List.forall_mem_cons]
  exact ⟨⟨isForm_of_row_f2 rfl b, fun _ => rfl⟩, ⟨isForm_of_row_f2 rfl b, fun _ => rfl⟩,
    ⟨isForm_of_row_f3 rfl lo hi, fun _ => rfl⟩, ⟨isForm_of_row_f3 rfl lo hi, fun _ => rfl⟩, List.forall_mem_nil _⟩

end Lists

/-! ### What a form that runs a shared operation leaves (R82 to R91) -/

theorem ReadForm.Runs.exec_logic {f : ReadForm} {g : Byte → Byte → Byte} (h : f.Runs (logic g)) (s : State) :
    exec f.instr s = .next { afterReading f s with
      a := g s.a (f.source.value s), flags := nzOf s.flags (g s.a (f.source.value s)) } := by
  rw [h.exec_eq, logic_eq, setNZ_eq_nzOf, extra_eq_pageCrossCost, afterReading]

theorem ReadForm.Runs.exec_compare {f : ReadForm} {r : State → Byte}
    (h : f.Runs (fun o base s => compareWith (r s) o base s)) (s : State) :
    exec f.instr s = .next { afterReading f s with flags := compareFlags s.flags (r s) (f.source.value s) } := by
  have hexec : exec f.instr s = .next (compareWith (r s) f.source (s.baseCycles f.instr.opcode) s) := h.exec_eq s
  rw [hexec, compareWith_eq, compare_eq_compareFlags, extra_eq_pageCrossCost, afterReading]

/-- `MemRead(ea)` and one `MemWrite(ea, M + k)`: the byte at ea, N and Z, the cycles and the draw, and nothing else. -/
theorem addToMemory_writesOneByte {s : State} (hwf : s.ram.wf = true) (k : Nat) (o : MemOperand) (base : Nat) :
    SameButMemory { s with flags := nzOf s.flags (BitVec.ofNat 8 ((busRead s (o.ea s)).toNat + k)),
                           cyc := s.cyc + base, draws := s.draws + drawsAt (o.ea s) }
      (addToMemory (BitVec.ofNat 8 k) o base s) ∧
    StoredByte s (addToMemory (BitVec.ofNat 8 k) o base s) (o.ea s)
      (BitVec.ofNat 8 ((busRead s (o.ea s)).toNat + k)) := by
  rw [addToMemory_eq, ofNat_toNat_add, setNZ_eq_nzOf]
  exact ⟨rfl, stored_of_after hwf (o.ea s) _ rfl rfl⟩

/-! ### The index registers (R92 to R95) -/

theorem exec_inx (s : State) : exec .inx s = .next { s with
    x := s.x + 1, flags := nzOf s.flags (s.x + 1), cyc := s.cyc + s.baseCycles 0xE8 } := by
  rw [← setNZ_eq_nzOf]
  rfl

theorem exec_iny (s : State) : exec .iny s = .next { s with
    y := s.y + 1, flags := nzOf s.flags (s.y + 1), cyc := s.cyc + s.baseCycles 0xC8 } := by
  rw [← setNZ_eq_nzOf]
  rfl

theorem exec_dex (s : State) : exec .dex s = .next { s with
    x := s.x - 1, flags := nzOf s.flags (s.x - 1), cyc := s.cyc + s.baseCycles 0xCA } := by
  rw [← setNZ_eq_nzOf]
  rfl

theorem exec_dey (s : State) : exec .dey s = .next { s with
    y := s.y - 1, flags := nzOf s.flags (s.y - 1), cyc := s.cyc + s.baseCycles 0x88 } := by
  rw [← setNZ_eq_nzOf]
  rfl

/-! ### The seven statements -/

/-- Settles O7: each form is its row of the opcode map and runs the model's ADC, which is R80's in both modes. -/
theorem adcAddsWithCarry : Obligations.AdcAddsWithCarry := by
  intro b lo hi s f hf
  obtain ⟨hform, hexec⟩ := adcForms_run b lo hi f hf
  refine ⟨hform, ?_⟩
  rw [hexec, addWithCarry_eq, adc_eq_adcOf, setArith_eq_arithFlags, extra_eq_pageCrossCost, afterReading]

/-- Settles O8: each form is its row of the opcode map and runs the model's SBC, which is R81's in both modes. -/
theorem sbcSubtractsWithBorrow : Obligations.SbcSubtractsWithBorrow := by
  intro b lo hi s f hf
  obtain ⟨hform, hexec⟩ := sbcForms_run b lo hi f hf
  refine ⟨hform, ?_⟩
  rw [hexec, subWithBorrow_eq, sbc_eq_sbcOf, setArith_eq_arithFlags, extra_eq_pageCrossCost, afterReading]

/-- Settles O11: each form is its row of the opcode map and runs `logic` with its own bitwise operator. -/
theorem logicWritesAccumulator : Obligations.LogicWritesAccumulator := by
  intro b lo hi s
  refine ⟨fun f hf => ?_, fun f hf => ?_, fun f hf => ?_⟩
  · have hruns := andForms_run b lo hi f hf
    exact ⟨hruns.isForm, hruns.exec_logic s⟩
  · have hruns := oraForms_run b lo hi f hf
    exact ⟨hruns.isForm, hruns.exec_logic s⟩
  · have hruns := eorForms_run b lo hi f hf
    exact ⟨hruns.isForm, hruns.exec_logic s⟩

/-- Settles O12: both forms are their rows of the opcode map and read N and V off M, and Z off A & M. -/
theorem bitTestsMemory : Obligations.BitTestsMemory := by
  intro b lo hi s f hf
  obtain ⟨hform, hexec⟩ := bitForms_run b lo hi f hf
  refine ⟨hform, ?_⟩
  rw [hexec, testBits_eq, bitTest_eq, extra_eq_pageCrossCost, afterReading]

/-- Settles O13: each form is its row of the opcode map and runs the one compare on its own register. -/
theorem comparesSetFlagsOnly : Obligations.ComparesSetFlagsOnly := by
  intro b lo hi s
  refine ⟨fun f hf => ?_, fun f hf => ?_, fun f hf => ?_⟩
  · have hruns := cmpForms_run b lo hi f hf
    exact ⟨hruns.isForm, hruns.exec_compare s⟩
  · have hruns := cpxForms_run b lo hi f hf
    exact ⟨hruns.isForm, hruns.exec_compare s⟩
  · have hruns := cpyForms_run b lo hi f hf
    exact ⟨hruns.isForm, hruns.exec_compare s⟩

/-- Settles O14: each form is its row of the opcode map and adds 1, or 255 modulo 256, to the byte at its own ea. -/
theorem incDecWriteMemory : Obligations.IncDecWriteMemory := by
  intro b lo hi s hwf
  refine ⟨fun f hf => ?_, fun f hf => ?_⟩
  · obtain ⟨hform, hexec⟩ := incForms_run b lo hi f hf
    exact ⟨hform, _, hexec s, addToMemory_writesOneByte hwf 1 f.dest _⟩
  · obtain ⟨hform, hexec⟩ := decForms_run b lo hi f hf
    exact ⟨hform, _, hexec s, addToMemory_writesOneByte hwf 255 f.dest _⟩

/-- Settles O15: each count is its row of the opcode map, and adding 255 modulo 256 is the model's subtraction of 1. -/
theorem indexRegistersCount : Obligations.IndexRegistersCount := by
  intro s
  simp only [ofNat_toNat_add_255, ofNat_toNat_add]
  exact ⟨⟨isForm_of_row_f1 rfl, exec_inx s⟩, ⟨isForm_of_row_f1 rfl, exec_iny s⟩,
    ⟨isForm_of_row_f1 rfl, exec_dex s⟩, ⟨isForm_of_row_f1 rfl, exec_dey s⟩⟩

end Sys2Proof.Machine
end

section
/-! PROOFS. Shifts and rotates (43_shift_rotate.md): every form of a rule runs the one shared `shift` with the function of
its mnemonic, and that function is the rule's result and carry in exact arithmetic. -/

namespace Sys2Proof.Machine

/-! ### The four functions, in exact arithmetic (R96 to R99) -/

theorem getLsbD_zero_eq_decide (v : Byte) : v.getLsbD 0 = decide (v.toNat % 2 = 1) :=
  Nat.testBit_zero v.toNat

theorem toNat_carryIn (c : Bool) : ((BitVec.ofBool c).setWidth 8).toNat = c.toNat := by
  cases c <;> rfl

theorem shiftLeft_one_eq (m : Byte) : m <<< 1 = BitVec.ofNat 8 (2 * m.toNat) := by
  apply BitVec.eq_of_toNat_eq
  rw [BitVec.toNat_shiftLeft, Nat.shiftLeft_eq, BitVec.toNat_ofNat, pow_one, Nat.mul_comm]

theorem shiftRight_one_eq (m : Byte) : m >>> 1 = BitVec.ofNat 8 (m.toNat / 2) := by
  have hm := m.isLt
  apply BitVec.eq_of_toNat_eq
  rw [BitVec.toNat_ushiftRight, Nat.shiftRight_eq_div_pow, BitVec.toNat_ofNat, pow_one, Nat.mod_eq_of_lt (by omega)]

/-- Bit 0 is clear after a left shift, so the old carry enters it by a sum. -/
theorem shiftLeft_one_or_carry (m : Byte) (c : Bool) :
    m <<< 1 ||| (BitVec.ofBool c).setWidth 8 = BitVec.ofNat 8 (2 * m.toNat + c.toNat) := by
  have hc : c.toNat < 2 ^ 1 := c.toNat_lt
  have heven : 2 * m.toNat % 256 = 2 ^ 1 * (m.toNat % 128) := by omega
  apply BitVec.eq_of_toNat_eq
  rw [shiftLeft_one_eq, BitVec.toNat_or, toNat_carryIn, BitVec.toNat_ofNat, BitVec.toNat_ofNat, heven,
    ← Nat.two_pow_add_eq_or_of_lt hc]
  omega

/-- Bit 7 is clear after a right shift, so the old carry enters it by a sum. -/
theorem shiftRight_one_or_carry (m : Byte) (c : Bool) :
    m >>> 1 ||| (BitVec.ofBool c).setWidth 8 <<< 7 = BitVec.ofNat 8 (m.toNat / 2 + 128 * c.toNat) := by
  have hm := m.isLt
  have hc := c.toNat_lt
  have hhalf : m.toNat / 2 < 2 ^ 7 := by omega
  have htop : c.toNat * 2 ^ 7 % 2 ^ 8 = 2 ^ 7 * c.toNat := by omega
  apply BitVec.eq_of_toNat_eq
  rw [shiftRight_one_eq, BitVec.toNat_or, BitVec.toNat_shiftLeft, toNat_carryIn, Nat.shiftLeft_eq, htop,
    BitVec.toNat_ofNat, BitVec.toNat_ofNat, Nat.mod_eq_of_lt (by omega), Nat.or_comm, ← Nat.two_pow_add_eq_or_of_lt hhalf]
  omega

theorem asl_eq (m : Byte) (c : Bool) : asl m c = ⟨BitVec.ofNat 8 (2 * m.toNat), decide (128 ≤ m.toNat)⟩ := by
  rw [asl, shiftLeft_one_eq, getLsbD_seven_eq_decide]

theorem lsr_eq (m : Byte) (c : Bool) : lsr m c = ⟨BitVec.ofNat 8 (m.toNat / 2), decide (m.toNat % 2 = 1)⟩ := by
  rw [lsr, shiftRight_one_eq, getLsbD_zero_eq_decide]

theorem rol_eq (m : Byte) (c : Bool) :
    rol m c = ⟨BitVec.ofNat 8 (2 * m.toNat + c.toNat), decide (128 ≤ m.toNat)⟩ := by
  rw [rol, shiftLeft_one_or_carry, getLsbD_seven_eq_decide]

theorem ror_eq (m : Byte) (c : Bool) :
    ror m c = ⟨BitVec.ofNat 8 (m.toNat / 2 + 128 * c.toNat), decide (m.toNat % 2 = 1)⟩ := by
  rw [ror, shiftRight_one_or_carry, getLsbD_zero_eq_decide]

/-! ### What the forms of a rule run (R96 to R99) -/

section Lists

variable (b lo hi : Byte)

theorem aslForms_run : ∀ f ∈ aslForms b lo hi, f.Runs (fun o => shift asl (.mem o)) := by
  simp only [aslForms, List.forall_mem_cons]
  exact ⟨⟨isForm_of_row_f2 rfl b, fun _ => rfl⟩, ⟨isForm_of_row_f2 rfl b, fun _ => rfl⟩,
    ⟨isForm_of_row_f3 rfl lo hi, fun _ => rfl⟩, ⟨isForm_of_row_f3 rfl lo hi, fun _ => rfl⟩, List.forall_mem_nil _⟩

theorem lsrForms_run : ∀ f ∈ lsrForms b lo hi, f.Runs (fun o => shift lsr (.mem o)) := by
  simp only [lsrForms, List.forall_mem_cons]
  exact ⟨⟨isForm_of_row_f2 rfl b, fun _ => rfl⟩, ⟨isForm_of_row_f2 rfl b, fun _ => rfl⟩,
    ⟨isForm_of_row_f3 rfl lo hi, fun _ => rfl⟩, ⟨isForm_of_row_f3 rfl lo hi, fun _ => rfl⟩, List.forall_mem_nil _⟩

theorem rolForms_run : ∀ f ∈ rolForms b lo hi, f.Runs (fun o => shift rol (.mem o)) := by
  simp only [rolForms, List.forall_mem_cons]
  exact ⟨⟨isForm_of_row_f2 rfl b, fun _ => rfl⟩, ⟨isForm_of_row_f2 rfl b, fun _ => rfl⟩,
    ⟨isForm_of_row_f3 rfl lo hi, fun _ => rfl⟩, ⟨isForm_of_row_f3 rfl lo hi, fun _ => rfl⟩, List.forall_mem_nil _⟩

theorem rorForms_run : ∀ f ∈ rorForms b lo hi, f.Runs (fun o => shift ror (.mem o)) := by
  simp only [rorForms, List.forall_mem_cons]
  exact ⟨⟨isForm_of_row_f2 rfl b, fun _ => rfl⟩, ⟨isForm_of_row_f2 rfl b, fun _ => rfl⟩,
    ⟨isForm_of_row_f3 rfl lo hi, fun _ => rfl⟩, ⟨isForm_of_row_f3 rfl lo hi, fun _ => rfl⟩, List.forall_mem_nil _⟩

end Lists

/-- The rule's instructions are rows of the opcode map that run `shift` with `op`, and `op` is the rule's result and
carry. -/
structure ShiftRule.Runs (r : ShiftRule) (op : Byte → Bool → Shifted) : Prop where
  acc_isForm : IsForm [r.accOpcode] r.accInstr 2
  exec_acc : ∀ s, exec r.accInstr s = .next (shift op .acc (s.baseCycles r.accOpcode) s)
  forms_run : ∀ b lo hi, ∀ f ∈ r.forms b lo hi, f.Runs (fun o => shift op (.mem o))
  op_eq : ∀ m c, op m c = ⟨r.result m c, r.carry m⟩

theorem shiftRules_run : ∀ r ∈ shiftRules, ∃ op, r.Runs op := by
  simp only [shiftRules, List.forall_mem_cons]
  exact ⟨⟨asl, isForm_of_row_f1 rfl, fun _ => rfl, aslForms_run, asl_eq⟩,
    ⟨lsr, isForm_of_row_f1 rfl, fun _ => rfl, lsrForms_run, lsr_eq⟩,
    ⟨rol, isForm_of_row_f1 rfl, fun _ => rfl, rolForms_run, rol_eq⟩,
    ⟨ror, isForm_of_row_f1 rfl, fun _ => rfl, rorForms_run, ror_eq⟩, List.forall_mem_nil _⟩

/-! ### What a shift leaves, on A and on memory -/

theorem setShift_eq_nzOf (f : Flags) (u : Shifted) : f.setShift u = nzOf { f with c := u.c } u.r :=
  setNZ_eq_nzOf { f with c := u.c } u.r

theorem ShiftRule.Runs.shift_acc {r : ShiftRule} {op : Byte → Bool → Shifted} (h : r.Runs op) (base : Nat) (s : State) :
    shift op .acc base s = { s with
      a := r.result s.a s.flags.c, flags := nzOf { s.flags with c := r.carry s.a } (r.result s.a s.flags.c),
      cyc := s.cyc + base } := by
  rw [shift_acc_eq, setShift_eq_nzOf, h.op_eq]

/-- `MemRead(ea)` and one `MemWrite(ea, r)`: the byte at ea, C, N and Z, the cycles and the draw, and nothing else. -/
theorem ShiftRule.Runs.shift_mem_writesOneByte {r : ShiftRule} {op : Byte → Bool → Shifted} (h : r.Runs op) {s : State}
    (hwf : s.ram.wf = true) (o : MemOperand) (base : Nat) :
    SameButMemory { s with
      flags := nzOf { s.flags with c := r.carry (busRead s (o.ea s)) } (r.result (busRead s (o.ea s)) s.flags.c),
      cyc := s.cyc + base, draws := s.draws + drawsAt (o.ea s) } (shift op (.mem o) base s) ∧
    StoredByte s (shift op (.mem o) base s) (o.ea s) (r.result (busRead s (o.ea s)) s.flags.c) := by
  rw [shift_mem_eq, setShift_eq_nzOf, h.op_eq]
  exact ⟨rfl, stored_of_after hwf (o.ea s) _ rfl rfl⟩

/-! ### The statement -/

/-- Settles O16: each form is its row of the opcode map and runs the shift of its rule, on A or at its own ea. -/
theorem shiftsMoveOneBit : Obligations.ShiftsMoveOneBit := by
  intro b lo hi s hwf r hr
  obtain ⟨op, hruns⟩ := shiftRules_run r hr
  refine ⟨⟨hruns.acc_isForm, ?_⟩, fun f hf => ?_⟩
  · rw [hruns.exec_acc, hruns.shift_acc]
  · obtain ⟨hform, hexec⟩ := hruns.forms_run b lo hi f hf
    exact ⟨hform, _, hexec s, hruns.shift_mem_writesOneByte hwf f.dest _⟩

end Sys2Proof.Machine
end

section
/-! PROOFS. Subroutines, the trap and the branches (44_control_transfer.md): pushes fill the stack cells from SP down,
pulls read them from SP up, and every branch runs the one shared `branch` on its own condition. -/

namespace Sys2Proof.Machine

/-! ### Bytes, words and offsets in exact arithmetic (R8, R52) -/

theorem hiByte_eq_ofNat (a : Addr) : hiByte a = BitVec.ofNat 8 (a.toNat / 256) := by
  rw [← hiByte_toNat, BitVec.ofNat_toNat, BitVec.setWidth_eq]

theorem loByte_eq_ofNat (a : Addr) : loByte a = BitVec.ofNat 8 (a.toNat % 256) := by
  apply BitVec.eq_of_toNat_eq
  rw [loByte, BitVec.toNat_setWidth, BitVec.toNat_ofNat, Nat.mod_mod]

theorem hiLo_eq_ofNat (hi lo : Byte) : hiLo hi lo = BitVec.ofNat 16 (256 * hi.toNat + lo.toNat) := by
  rw [Nat.mul_comm, ← hiLo_toNat, BitVec.ofNat_toNat, BitVec.setWidth_eq]

theorem branchTarget_eq_ofInt (pcNext : Addr) (off : Byte) :
    branchTarget pcNext off = BitVec.ofInt 16 ((pcNext.toNat : Int) + off.toInt) := by
  rw [branchTarget, BitVec.signExtend, BitVec.ofInt_add, BitVec.ofInt_natCast, BitVec.ofNat_toNat, BitVec.setWidth_eq]

/-! ### RAM and SP after one, two and three pushes (R73, R101, R103) -/

theorem stackCell_inj {p q : Byte} : stackCell p = stackCell q ↔ p = q := by
  rw [stackCell_eq_stackAddr, stackCell_eq_stackAddr, stackAddr_inj]

/-- An address is the cell of one stack pointer at most, so tests for several cells may be reordered. -/
theorem ne_stackCell_of_eq {a : Addr} {p q : Byte} (h : p ≠ q) : a = stackCell p → ¬ a = stackCell q :=
  fun hp hq => h (stackCell_inj.mp (hp.symm.trans hq))

theorem push_sp (v : Byte) (s : State) : (push v s).sp = s.sp - 1 := rfl

theorem pushAddr_sp (v : Addr) (s : State) : (pushAddr v s).sp = s.sp - 2 :=
  sub_sub s.sp 1 1

theorem push_ram_wf {s : State} (hwf : s.ram.wf = true) (v : Byte) : (push v s).ram.wf = true :=
  busWrite_ram_wf hwf (stackAddr s.sp) v

theorem ramAt_push {s : State} (hwf : s.ram.wf = true) (v : Byte) (a : Addr) :
    ramAt (push v s) a = if a = stackCell s.sp then v else ramAt s a := by
  change ramAt (busWrite s (stackAddr s.sp) v) a = _
  simp only [ramAt_busWrite hwf, not_inVicWindow_stackAddr, not_false_eq_true, and_true, stackCell_eq_stackAddr]

/-- Pushes fill different cells, so their bytes can be told in the order of the pushes. -/
theorem ramAt_pushAddr {s : State} (hwf : s.ram.wf = true) (v : Addr) (a : Addr) :
    ramAt (pushAddr v s) a =
      if a = stackCell s.sp then hiByte v else if a = stackCell (s.sp - 1) then loByte v else ramAt s a := by
  have hne : s.sp - 1 ≠ s.sp := by bv_omega
  rw [pushAddr, ramAt_push (push_ram_wf hwf _), ramAt_push hwf, push_sp, ite_ite_comm (h := ne_stackCell_of_eq hne)]

theorem ramAt_takeTrap {s : State} (hwf : s.ram.wf = true) (ret : Addr) (a : Addr) :
    ramAt (takeTrap ret s) a =
      if a = stackCell s.sp then hiByte ret
      else if a = stackCell (s.sp - 1) then loByte ret
      else if a = stackCell (s.sp - 2) then s.flags.pack
      else ramAt s a := by
  have hne0 : s.sp - 2 ≠ s.sp := by bv_omega
  have hne1 : s.sp - 2 ≠ s.sp - 1 := by bv_omega
  have hwf' : (pushAddr ret s).ram.wf = true := push_ram_wf (push_ram_wf hwf _) _
  change ramAt (push s.flags.pack (pushAddr ret s)) a = _
  rw [ramAt_push hwf', ramAt_pushAddr hwf, pushAddr_sp, ite_ite_comm (h := ne_stackCell_of_eq hne0),
    ite_ite_comm (h := ne_stackCell_of_eq hne1)]

theorem takeTrap_sp (ret : Addr) (s : State) : (takeTrap ret s).sp = s.sp - 3 := by
  rw [takeTrap_eq, sub_sub, sub_sub]
  rfl

/-! ### What two and three pulls answer (R74, R102, R104) -/

theorem afterPullAddr_sp (s : State) : (afterPullAddr s).sp = s.sp + 2 :=
  add_assoc s.sp 1 1

theorem pulledAddr_eq_ofNat (s : State) : pulledAddr s = BitVec.ofNat 16
    (256 * (ramAt s (stackCell (s.sp + 2))).toNat + (ramAt s (stackCell (s.sp + 1))).toNat) := by
  rw [pulledAddr, pulled_eq_ramAt_stackCell, pulled_eq_ramAt_stackCell, afterPull_eq, add_assoc, hiLo_eq_ofNat]
  rfl

/-! ### What the four instructions run (R101 to R104) -/

theorem exec_jsr (w : Addr) (s : State) :
    exec (.jsr w) s = .next (((pushAddr (s.pc - 1) s).setPc w).addCycles (s.baseCycles 0x20)) := rfl

theorem exec_rts (s : State) : exec .rts s = .next { s with
    sp := s.sp + 2, pc := pulledAddr s + 1, cyc := s.cyc + s.baseCycles 0x60 } := by
  rw [← afterPullAddr_sp]
  rfl

theorem exec_brk (s : State) : exec .brk s = .next ((takeTrap (s.pc + 1) s).addCycles (s.baseCycles 0x00)) := rfl

/-- `flagsFrom` is the model's `unpack`; the word is pulled once SP is past the status byte (R104). -/
theorem exec_rti (s : State) : exec .rti s = .next { s with
    sp := s.sp + 3, flags := flagsFrom s.flags (pulled s), pc := pulledAddr (afterPull s),
    cyc := s.cyc + s.baseCycles 0x40 } := by
  have hsp : s.sp + 3 = s.sp + 1 + 1 + 1 := by bv_omega
  rw [hsp]
  rfl

/-! ### The branches (R105 to R113) -/

theorem branchForms_run (off : Byte) : ∀ f ∈ branchForms, IsForm [f.opcode, off] (f.instr off) 2 ∧
    ∀ s, exec (f.instr off) s = .next (branch (f.taken s.flags) off (s.baseCycles f.opcode) s) := by
  simp only [branchForms, List.forall_mem_cons]
  exact ⟨⟨isForm_of_row_f2 rfl off, fun _ => rfl⟩, ⟨isForm_of_row_f2 rfl off, fun _ => rfl⟩,
    ⟨isForm_of_row_f2 rfl off, fun _ => rfl⟩, ⟨isForm_of_row_f2 rfl off, fun _ => rfl⟩,
    ⟨isForm_of_row_f2 rfl off, fun _ => rfl⟩, ⟨isForm_of_row_f2 rfl off, fun _ => rfl⟩,
    ⟨isForm_of_row_f2 rfl off, fun _ => rfl⟩, ⟨isForm_of_row_f2 rfl off, fun _ => rfl⟩, List.forall_mem_nil _⟩

/-- The two ways a branch goes. -/
theorem branch_eq_ite (taken : Bool) (off : Byte) (base : Nat) (s : State) : branch taken off base s =
    let target := BitVec.ofInt 16 ((s.pc.toNat : Int) + off.toInt)
    if taken = true then
      { s with pc := target, cyc := s.cyc + (base + (if s.pc.toNat / 256 = target.toNat / 256 then 1 else 2)) }
    else { s with cyc := s.cyc + base } := by
  simp only [branch_eq, page_eq_iff, branchTarget_eq_ofInt]
  cases taken with
  | true => rfl
  | false => rfl

/-! ### The five statements -/

/-- Settles O18: JSR is two pushes, of the high and of the low byte of PCnext - 1, and a jump. -/
theorem jsrPushesReturnAddress : Obligations.JsrPushesReturnAddress := by
  intro lo hi s hwf
  refine ⟨isForm_of_row_f3 rfl lo hi, _, exec_jsr (hiLo hi lo) s, ?_, fun a => ?_⟩
  · rw [← pushAddr_sp (s.pc - 1) s, pushAddr_eq]
    rfl
  · rw [← hiByte_eq_ofNat, ← loByte_eq_ofNat]
    exact ramAt_pushAddr hwf (s.pc - 1) a

/-- Settles O19: RTS is two pulls, and adding one to the word is adding one modulo 65536. -/
theorem rtsReturnsPastTheCall : Obligations.RtsReturnsPastTheCall := by
  intro s
  refine ⟨isForm_of_row_f1 rfl, ?_⟩
  rw [exec_rts, pulledAddr_eq_ofNat, BitVec.ofNat_add _ 1]
  rfl

/-- Settles O20: BRK is the trap with the return address PCnext + 1; the KERNAL ROM serves both bytes of the vector. -/
theorem brkTakesTheTrap : Obligations.BrkTakesTheTrap := by
  intro s hwf
  have hhi : busRead s 0xFFFF = Config.kernalRom 0x1FFF := busRead_kernalRom s rfl
  have hlo : busRead s 0xFFFE = Config.kernalRom 0x1FFE := busRead_kernalRom s rfl
  refine ⟨isForm_of_row_f1 rfl, _, exec_brk s, ?_, hhi, hlo, fun a => ?_⟩
  · rw [hhi, hlo, ← takeTrap_sp (s.pc + 1) s, takeTrap_eq]
    rfl
  · rw [← hiByte_eq_ofNat, ← loByte_eq_ofNat, statusByte_eq_pack]
    exact ramAt_takeTrap hwf (s.pc + 1) a

/-- Settles O21: RTI is the pull of the status byte, then the pulls of the word, and takes the word as it is. -/
theorem rtiRestoresStatusAndPc : Obligations.RtiRestoresStatusAndPc := by
  intro s
  refine ⟨isForm_of_row_f1 rfl, ?_⟩
  have hsp2 : s.sp + 1 + 1 = s.sp + 2 := by bv_omega
  have hsp3 : s.sp + 1 + 2 = s.sp + 3 := by bv_omega
  rw [exec_rti, pulled_eq_ramAt_stackCell, pulledAddr_eq_ofNat, afterPull_eq, hsp2, hsp3]
  rfl

/-- Settles O23: each branch is its row of the opcode map and runs `branch` on its own condition. -/
theorem branchesTakeTheirCondition : Obligations.BranchesTakeTheirCondition := by
  intro off s f hf
  obtain ⟨hform, hexec⟩ := branchForms_run off f hf
  refine ⟨hform, ?_⟩
  rw [hexec, branch_eq_ite]

end Sys2Proof.Machine
end

section
/-! PROOFS. The flag instructions and NOP (45_flags_misc.md): one byte each, read off its row of the opcode map; each runs
as one update of the flags, or none, and its base count. -/

namespace Sys2Proof.Machine

theorem isForm_of_mem_flagForms : ∀ f ∈ flagForms, IsForm [f.opcode] f.instr 2 := by
  simp only [flagForms, List.forall_mem_cons]
  exact ⟨isForm_of_row_f1 rfl, isForm_of_row_f1 rfl, isForm_of_row_f1 rfl, isForm_of_row_f1 rfl, isForm_of_row_f1 rfl,
    isForm_of_row_f1 rfl, isForm_of_row_f1 rfl, List.forall_mem_nil _⟩

/-- Each flag instruction runs the update its form names, with the base count at its own opcode (R114 to R120). -/
theorem exec_of_mem_flagForms (s : State) : ∀ f ∈ flagForms,
    exec f.instr s = .next ((s.setFlags (f.after s.flags)).addCycles (s.baseCycles f.opcode)) := by
  simp only [flagForms, List.forall_mem_cons]
  exact ⟨rfl, rfl, rfl, rfl, rfl, rfl, rfl, List.forall_mem_nil _⟩

theorem exec_nop (s : State) : exec .nop s = .next (s.addCycles (s.baseCycles 0xEA)) := rfl

/-- Settles O24: each is its row of the opcode map; the seven flag instructions update the flags as their form says, and
NOP updates none. -/
theorem flagInstructionsWriteOneFlag : Obligations.FlagInstructionsWriteOneFlag := by
  intro s
  refine ⟨fun f hf => ⟨isForm_of_mem_flagForms f hf, ?_⟩, isForm_of_row_f1 rfl, ?_⟩
  · rw [exec_of_mem_flagForms s f hf, State.setFlags, State.addCycles]
  · rw [exec_nop, State.addCycles]

end Sys2Proof.Machine
end

section
/-! PROOFS. loadBytes (70_reset_and_hazards.md): what a run of Bus writes at consecutive addresses leaves in one cell,
and the host call that makes it. -/

namespace Sys2Proof.Machine

/-! ### A byte list laid over the cells from an address up -/

/-- What the cell at `c` holds once `bytes` lie at `a` and up, `old` being what it held before. -/
def overlaid (a : Nat) (bytes : List Byte) (old : Byte) (c : Nat) : Byte :=
  if h : a ≤ c ∧ c - a < bytes.length then bytes[c - a] else old

theorem overlaid_nil (a : Nat) (old : Byte) (c : Nat) : overlaid a [] old c = old :=
  dif_neg fun h => Nat.not_lt_zero _ h.2

/-- The first byte goes to the first cell, and the later ones lie above it. -/
theorem overlaid_cons (a : Nat) (b : Byte) (rest : List Byte) (old : Byte) (c : Nat) :
    overlaid a (b :: rest) old c = overlaid (a + 1) rest (if c = a then b else old) c := by
  obtain hbelow | rfl | habove := Nat.lt_trichotomy c a
  · simp [overlaid, hbelow.ne, hbelow.not_ge, (Nat.lt_succ_of_lt hbelow).not_ge]
  · simp [overlaid]
  · obtain ⟨k, rfl⟩ := Nat.exists_eq_add_of_le habove
    have hk : a + 1 + k - a = k + 1 := by omega
    have hle : a ≤ a + 1 + k := by omega
    simp [overlaid, hk, hle, habove.ne']

/-! ### The writes of a byte list through the Bus (R152) -/

theorem writeBytes_cons (a : Nat) (b : Byte) (rest : List Byte) (s : State) :
    writeBytes a (b :: rest) s = writeBytes (a + 1) rest (busWrite s (BitVec.ofNat 16 a) b) := rfl

theorem sameButMemory_trans {s t u : State} (hst : SameButMemory s t) (htu : SameButMemory t u) : SameButMemory s u :=
  htu.trans (by rw [hst])

theorem writeBytes_sameButMemory (a : Nat) (bytes : List Byte) (s : State) :
    SameButMemory s (writeBytes a bytes s) := by
  induction bytes generalizing a s with
  | nil => rfl
  | cons b rest ih =>
    have hstep : SameButMemory s (busWrite s (BitVec.ofNat 16 a) b) := by
      simp only [SameButMemory, busWrite_eq]
    exact sameButMemory_trans hstep (ih (a + 1) _)

/-- Below 65536 an address is the number it was made of. -/
theorem toNat_ofNat_addr {a : Nat} (ha : a < 65536) : (BitVec.ofNat 16 a).toNat = a := by
  rw [BitVec.toNat_ofNat, Nat.mod_eq_of_lt ha]

/-- RAM takes the bytes outside the VIC window, and keeps what it held under the window (R33). -/
theorem ramAt_writeBytes (a : Nat) (bytes : List Byte) {s : State} (hwf : s.ram.wf = true)
    (hfit : a + bytes.length ≤ 65536) (c : Addr) :
    ramAt (writeBytes a bytes s) c =
      if InVicWindow c then ramAt s c else overlaid a bytes (ramAt s c) c.toNat := by
  induction bytes generalizing a s with
  | nil => rw [overlaid_nil, ite_self, writeBytes]
  | cons b rest ih =>
    rw [List.length_cons] at hfit
    have hc : c = BitVec.ofNat 16 a ↔ c.toNat = a := by
      rw [BitVec.toNat_eq, toNat_ofNat_addr (by omega)]
    rw [writeBytes_cons, ih (a + 1) (busWrite_ram_wf hwf _ b) (by omega), ramAt_busWrite hwf, overlaid_cons]
    by_cases hw : InVicWindow c
    · have hkeep : ¬ (c = BitVec.ofNat 16 a ∧ ¬ InVicWindow (BitVec.ofNat 16 a)) := fun h => h.2 (h.1 ▸ hw)
      rw [if_pos hw, if_pos hw, if_neg hkeep]
    · have htake : (c = BitVec.ofNat 16 a ∧ ¬ InVicWindow (BitVec.ofNat 16 a)) ↔ c.toNat = a :=
        ⟨fun h => hc.mp h.1, fun h => ⟨hc.mpr h, hc.mpr h ▸ hw⟩⟩
      rw [if_neg hw, if_neg hw, if_congr htake rfl rfl]

/-- The register at $D000 + k takes the byte that lies at its address (R35). -/
theorem writeBytes_vic (a : Nat) (bytes : List Byte) (s : State) (hfit : a + bytes.length ≤ 65536)
    (k : Nat) (hk : k < 48) :
    (writeBytes a bytes s).vic[k] = overlaid a bytes s.vic[k] (0xD000 + k) := by
  induction bytes generalizing a s with
  | nil => rw [overlaid_nil, writeBytes]
  | cons b rest ih =>
    rw [List.length_cons] at hfit
    have hvic : (busWrite s (BitVec.ofNat 16 a) b).vic[k] = if 0xD000 + k = a then b else s.vic[k] := by
      simp only [busWrite_eq, vicAfter_getElem, toNat_ofNat_addr (show a < 65536 by omega), eq_comm]
    rw [writeBytes_cons, ih (a + 1) _ (by omega), hvic, overlaid_cons]

/-! ### The host call -/

theorem loadBytes_fits {a : Nat} {bytes : List Byte} (s : State) (h : a + bytes.length ≤ 65536) :
    loadBytes a bytes s = .next (writeBytes a bytes s) :=
  if_pos (decide_eq_true h)

theorem loadBytes_refused {a : Nat} {bytes : List Byte} (s : State) (h : 65536 < a + bytes.length) :
    loadBytes a bytes s = .refused (.loadOutOfRange a bytes.length) :=
  if_neg fun hfit => h.not_ge (of_decide_eq_true hfit)

/-- Settles O50: in range the call is the run of writes, which lays the bytes over RAM and the register file. -/
theorem loadBytesWritesInOrder : Obligations.LoadBytesWritesInOrder := by
  intro a bytes s hwf
  exact ⟨loadBytes_refused s, fun hfit => ⟨writeBytes a bytes s, loadBytes_fits s hfit,
    writeBytes_sameButMemory a bytes s, ramAt_writeBytes a bytes hwf hfit, writeBytes_vic a bytes s hfit⟩⟩

end Sys2Proof.Machine
end

section
/-! PROOFS. The encoding (30_encoding.md): each instruction's opcode byte names the row of the map that makes the
instruction from its own operand bytes, so decoding and encoding undo each other; and the bytes without a row. -/

namespace Sys2Proof.Machine

/-! ### The encoding of an instruction decodes to it (R49, R55, R56) -/

/-- `isForm_of_row_f3` for the operand bytes of a word: the two bytes put together again are the word. -/
theorem decodesTo_of_row_f3 {op : Byte} {m : Mnemonic} {mode : Mode} {base : Nat} {cross : Bool} {make : Addr → Instr}
    (h : lookup op = some ⟨op, m, mode, base, cross, .f3 make⟩) (w : Addr) :
    DecodesTo [op, loByte w, hiByte w] (make w) := by
  have hform := isForm_of_row_f3 h (loByte w) (hiByte w)
  rw [hiLo_hiByte_loByte] at hform
  exact hform.1

/-- By format: no operand byte, one, or the two bytes of a word. -/
theorem decodesTo_encode (i : Instr) : DecodesTo (encode i) i := by
  cases i with
  | aslAcc | brk | clc | cld | cli | clv | dex | dey | inx | iny | lsrAcc | nop | pha | php | pla | plp | rolAcc
    | rorAcc | rti | rts | sec | sed | sei | tax | tay | tsx | txa | txs | tya =>
    dsimp only [encode, Instr.opcode, Instr.operandBytes]
    exact (isForm_of_row_f1 rfl).1
  | adcImm | adcZp | adcZpx | adcIzx | adcIzy | andImm | andZp | andZpx | andIzx | andIzy | aslZp | aslZpx | bcc
    | bcs | beq | bitZp | bmi | bne | bpl | bvc | bvs | cmpImm | cmpZp | cmpZpx | cmpIzx | cmpIzy | cpxImm | cpxZp
    | cpyImm | cpyZp | decZp | decZpx | eorImm | eorZp | eorZpx | eorIzx | eorIzy | incZp | incZpx | ldaImm | ldaZp
    | ldaZpx | ldaIzx | ldaIzy | ldxImm | ldxZp | ldxZpy | ldyImm | ldyZp | ldyZpx | lsrZp | lsrZpx | oraImm | oraZp
    | oraZpx | oraIzx | oraIzy | rolZp | rolZpx | rorZp | rorZpx | sbcImm | sbcZp | sbcZpx | sbcIzx | sbcIzy | staZp
    | staZpx | staIzx | staIzy | stxZp | stxZpy | styZp | styZpx =>
    dsimp only [encode, Instr.opcode, Instr.operandBytes]
    exact (isForm_of_row_f2 rfl _).1
  | adcAbs | adcAbx | adcAby | andAbs | andAbx | andAby | aslAbs | aslAbx | bitAbs | cmpAbs | cmpAbx | cmpAby
    | cpxAbs | cpyAbs | decAbs | decAbx | eorAbs | eorAbx | eorAby | incAbs | incAbx | jmpAbs | jmpInd | jsr
    | ldaAbs | ldaAbx | ldaAby | ldxAbs | ldxAby | ldyAbs | ldyAbx | lsrAbs | lsrAbx | oraAbs | oraAbx | oraAby
    | rolAbs | rolAbx | rorAbs | rorAbx | sbcAbs | sbcAbx | sbcAby | staAbs | staAbx | staAby | stxAbs | styAbs =>
    dsimp only [encode, Instr.opcode, Instr.operandBytes]
    exact decodesTo_of_row_f3 rfl _

/-- Settles O25: the encoding decodes to its instruction whatever follows it. -/
theorem decodeOfEncode : Obligations.DecodeOfEncode :=
  fun i rest _ => decodesTo_encode i rest

/-- Settles O26: the row found is the instruction's own, and its operand bytes are those the row's format took. -/
theorem encodeOfDecode : Obligations.EncodeOfDecode := by
  intro bytes rest i hdec
  obtain ⟨row, -, hbytes, -⟩ := decode_ok hdec
  obtain ⟨-, hwf, hlen⟩ := Laws.TableRow.all i
  exact ⟨hbytes, hlen, hwf⟩

/-! ### The bytes without a row (R57) -/

/-- Bytes compared by their numbers, which the kernel does at once. -/
theorem any_byte_iff_mem (l : List Byte) (op : Byte) : (l.any fun b => b.toNat.beq op.toNat) = true ↔ op ∈ l := by
  simp only [List.any_eq_true, Nat.beq_eq, BitVec.toNat_inj, exists_eq_right]

/-- The rows of the map and R57's list share no byte and leave none out. -/
theorem opcodeMap_complements_unimplementedBytes (op : Byte) :
    ((opcodeMap.map OpcodeRow.opcode).any fun b => b.toNat.beq op.toNat) =
      !(unimplementedBytes.any fun b => b.toNat.beq op.toNat) := by
  revert op
  decide

theorem lookup_eq_none_iff (op : Byte) : lookup op = none ↔ op ∈ unimplementedBytes := by
  have hrow : lookup op = none ↔ op ∉ opcodeMap.map OpcodeRow.opcode := by
    simp only [lookup, List.find?_eq_none, beq_iff_eq, List.mem_map, not_exists, not_and]
  rw [hrow, ← any_byte_iff_mem, opcodeMap_complements_unimplementedBytes, ← any_byte_iff_mem, Bool.not_eq_true',
    Bool.not_eq_false]

/-- The decoder refuses a byte by the name "unimplemented" exactly where it finds no row, whatever follows. -/
theorem decode_unimplemented_iff (op : Byte) (rest : List Byte) :
    decode (op :: rest) = .error (.unimplementedOpcode op) ↔ op ∈ unimplementedBytes := by
  rw [← lookup_eq_none_iff]
  cases hrow : lookup op with
  | none => simp only [decode, hrow]
  | some row =>
    simp only [decode, hrow, reduceCtorEq, iff_false]
    split <;> simp

/-- Settles O27: the listed bytes are those without a row. -/
theorem unimplementedBytesAreRefused : Obligations.UnimplementedBytesAreRefused :=
  fun op rest => ⟨(decode_unimplemented_iff op rest).mpr, fun h => mt (decode_unimplemented_iff op rest).mp h, rfl⟩

/-- Settles O28: each word is computed by the decoder. -/
theorem sampleWordsDecode : Obligations.SampleWordsDecode := by
  unfold Obligations.SampleWordsDecode
  decide

end Sys2Proof.Machine
end

section
/-! PROOFS. What `exec` can do, said once: every instruction performs one of the model's shared operations, and an
operation leaves the state `Operation.after`, field by field. The statements about all instructions read off it. -/

namespace Sys2Proof.Machine

/-- The shared operations, with their operands in the state they act on. -/
inductive Operation where
  | loadA (o : Source)
  | loadX (o : Source)
  | loadY (o : Source)
  | store (o : MemOperand) (v : Byte)
  | addWithCarry (o : Source)
  | subWithBorrow (o : Source)
  | logic (f : Byte → Byte → Byte) (o : Source)
  | testBits (o : Source)
  | compareWith (r : Byte) (o : Source)
  | addToMemory (delta : Byte) (o : MemOperand)
  | shiftAcc (f : Byte → Bool → Shifted)
  | shiftMem (f : Byte → Bool → Shifted) (o : MemOperand)
  | push (v : Byte)
  | pullA
  | pullFlags
  | setSp (v : Byte)
  | setC (v : Bool)
  | setI (v : Bool)
  | setD (v : Bool)
  | clearV
  | idle
  | jump (w : Addr)
  | jumpIndirect (ptr : Addr)
  | call (w : Addr)
  | ret
  | trap
  | trapReturn
  | branch (taken : Bool) (off : Byte)

/-! ### The state an operation leaves, field by field -/

/-- PC after the operation, which starts at PCnext (R16). -/
def Operation.pcAfter (op : Operation) (s : State) : Addr :=
  match op with
  | .jump w | .call w => w
  | .jumpIndirect ptr => hiLo (busRead s (wrapInPage ptr)) (busRead s ptr)
  | .ret => pulledAddr s + 1
  | .trap => hiLo (Config.kernalRom 0x1FFF) (Config.kernalRom 0x1FFE)
  | .trapReturn => pulledAddr (afterPull s)
  | .branch taken off => if taken then branchTarget s.pc off else s.pc
  | _ => s.pc

/-- SP after the operation (R15). -/
def Operation.spAfter (op : Operation) (s : State) : Byte :=
  match op with
  | .setSp v => v
  | .push _ => s.sp - 1
  | .pullA | .pullFlags => s.sp + 1
  | .call _ => s.sp - 1 - 1
  | .ret => s.sp + 2
  | .trap => s.sp - 1 - 1 - 1
  | .trapReturn => s.sp + 3
  | _ => s.sp

/-- A after the operation (R14). -/
def Operation.aAfter (op : Operation) (s : State) : Byte :=
  match op with
  | .loadA o => o.value s
  | .addWithCarry o => (adc s.flags s.a (o.value s)).r
  | .subWithBorrow o => (sbc s.flags s.a (o.value s)).r
  | .logic f o => f s.a (o.value s)
  | .shiftAcc f => (f s.a s.flags.c).r
  | .pullA => pulled s
  | _ => s.a

/-- X after the operation (R14). -/
def Operation.xAfter (op : Operation) (s : State) : Byte :=
  match op with
  | .loadX o => o.value s
  | _ => s.x

/-- Y after the operation (R14). -/
def Operation.yAfter (op : Operation) (s : State) : Byte :=
  match op with
  | .loadY o => o.value s
  | _ => s.y

/-- The flags after the operation (R18). -/
def Operation.flagsAfter (op : Operation) (s : State) : Flags :=
  match op with
  | .loadA o | .loadX o | .loadY o => s.flags.setNZ (o.value s)
  | .addWithCarry o => s.flags.setArith (adc s.flags s.a (o.value s))
  | .subWithBorrow o => s.flags.setArith (sbc s.flags s.a (o.value s))
  | .logic f o => s.flags.setNZ (f s.a (o.value s))
  | .testBits o => s.flags.bitTest s.a (o.value s)
  | .compareWith r o => s.flags.compare r (o.value s)
  | .addToMemory delta o => s.flags.setNZ (busRead s (o.ea s) + delta)
  | .shiftAcc f => s.flags.setShift (f s.a s.flags.c)
  | .shiftMem f o => s.flags.setShift (f (busRead s (o.ea s)) s.flags.c)
  | .pullA => s.flags.setNZ (pulled s)
  | .pullFlags | .trapReturn => s.flags.unpack (pulled s)
  | .setC v => { s.flags with c := v }
  | .setI v => { s.flags with i := v }
  | .setD v => { s.flags with d := v }
  | .clearV => { s.flags with v := false }
  | .trap => { s.flags with b := true, i := true }
  | _ => s.flags

/-- The cycles an operation takes beyond the base count (R59). -/
def Operation.extra (op : Operation) (s : State) : Nat :=
  match op with
  | .loadA o | .loadX o | .loadY o | .addWithCarry o | .subWithBorrow o | .logic _ o | .testBits o
  | .compareWith _ o => o.extra s
  | .branch taken off => if taken then if page s.pc = page (branchTarget s.pc off) then 1 else 2 else 0
  | _ => 0

/-- RAM after the operation. -/
def Operation.ramAfter (op : Operation) (s : State) : Memory :=
  match op with
  | .store o v => Machine.ramAfter s (o.ea s) v
  | .addToMemory delta o => Machine.ramAfter s (o.ea s) (busRead s (o.ea s) + delta)
  | .shiftMem f o => Machine.ramAfter s (o.ea s) (f (busRead s (o.ea s)) s.flags.c).r
  | .push v => s.ram.write (stackAddr s.sp) v
  | .call _ => (s.ram.write (stackAddr s.sp) (hiByte (s.pc - 1))).write (stackAddr (s.sp - 1)) (loByte (s.pc - 1))
  | .trap => ((s.ram.write (stackAddr s.sp) (hiByte (s.pc + 1))).write (stackAddr (s.sp - 1))
      (loByte (s.pc + 1))).write (stackAddr (s.sp - 1 - 1)) s.flags.pack
  | _ => s.ram

/-- The VIC register file after the operation. -/
def Operation.vicAfter (op : Operation) (s : State) : Vector Byte 48 :=
  match op with
  | .store o v => Machine.vicAfter s (o.ea s) v
  | .addToMemory delta o => Machine.vicAfter s (o.ea s) (busRead s (o.ea s) + delta)
  | .shiftMem f o => Machine.vicAfter s (o.ea s) (f (busRead s (o.ea s)) s.flags.c).r
  | _ => s.vic

/-- The draws an operation's reads use up (R35). -/
def Operation.drawsUsed (op : Operation) (s : State) : Nat :=
  match op with
  | .loadA o | .loadX o | .loadY o | .addWithCarry o | .subWithBorrow o | .logic _ o | .testBits o
  | .compareWith _ o => drawsBy o s
  | .addToMemory _ o | .shiftMem _ o => drawsAt (o.ea s)
  | .jumpIndirect ptr => drawsAt ptr + drawsAt (wrapInPage ptr)
  | _ => 0

/-- The state an operation leaves. The fault log, the VideoChip and the table of base counts are as before. -/
def Operation.after (op : Operation) (base : Nat) (s : State) : State := { s with
  pc := op.pcAfter s, sp := op.spAfter s, a := op.aAfter s, x := op.xAfter s, y := op.yAfter s,
  flags := op.flagsAfter s, cyc := s.cyc + (base + op.extra s), ram := op.ramAfter s, vic := op.vicAfter s,
  draws := s.draws + op.drawsUsed s }

/-! ### Which instructions perform an operation -/

/-- The mnemonics whose instructions perform an operation. A transfer or a count loads its own result. -/
def Operation.mnemonics (op : Operation) : List Mnemonic :=
  match op with
  | .loadA _ => [.lda, .txa, .tya]
  | .loadX _ => [.ldx, .tax, .tsx, .inx, .dex]
  | .loadY _ => [.ldy, .tay, .iny, .dey]
  | .store _ _ => [.sta, .stx, .sty]
  | .addWithCarry _ => [.adc]
  | .subWithBorrow _ => [.sbc]
  | .logic _ _ => [.and, .ora, .eor]
  | .testBits _ => [.bit]
  | .compareWith _ _ => [.cmp, .cpx, .cpy]
  | .addToMemory _ _ => [.inc, .dec]
  | .shiftAcc _ | .shiftMem _ _ => [.asl, .lsr, .rol, .ror]
  | .push _ => [.pha, .php]
  | .pullA => [.pla]
  | .pullFlags => [.plp]
  | .setSp _ => [.txs]
  | .setC _ => [.clc, .sec]
  | .setI _ => [.cli, .sei]
  | .setD _ => [.cld, .sed]
  | .clearV => [.clv]
  | .idle => [.nop]
  | .jump _ | .jumpIndirect _ => [.jmp]
  | .call _ => [.jsr]
  | .ret => [.rts]
  | .trap => [.brk]
  | .trapReturn => [.rti]
  | .branch _ _ => [.bcc, .bcs, .beq, .bne, .bmi, .bpl, .bvc, .bvs]

/-- The instructions that perform an operation: all of its mnemonics, but of the shifts only the accumulator forms
shift A. -/
def Operation.covers (op : Operation) (i : Instr) : Bool :=
  match op with
  | .shiftAcc _ => [Instr.aslAcc, .lsrAcc, .rolAcc, .rorAcc].contains i
  | _ => op.mnemonics.contains i.mnemonic

/-- The modes that index by the 16-bit sum (R59). -/
def Source.indexes (o : Source) : Bool :=
  match o with
  | .mem (.abx _) | .mem (.aby _) | .mem (.izy _) => true
  | _ => false

/-- The most an operation can take beyond the base count (R59). -/
def Operation.maxExtra (op : Operation) : Nat :=
  match op with
  | .loadA o | .loadX o | .loadY o | .addWithCarry o | .subWithBorrow o | .logic _ o | .testBits o
  | .compareWith _ o => if o.indexes then 1 else 0
  | .branch _ _ => 2
  | _ => 0

/-- The extra cycles R59 allows an instruction, by mnemonic and mode: one for an indexed read, two for a branch. -/
def allowedExtra (m : Mnemonic) (md : Mode) : Nat :=
  if [Mode.abx, .aby, .izy].contains md && [Mnemonic.lda, .ldx, .ldy, .adc, .sbc, .and, .ora, .eor, .cmp].contains m
  then 1 else if md = .rel then 2 else 0

/-- In the state `s` the instruction performs the operation, at the base count of its own opcode. -/
structure Performs (i : Instr) (op : Operation) (s : State) : Prop where
  exec_eq : exec i s = .next (op.after (s.baseCycles i.opcode) s)
  covers : op.covers i = true
  maxExtra : op.maxExtra = allowedExtra i.mnemonic i.mode

/-! ### Every instruction performs one operation -/

section Equations

variable (base : Nat) (s : State)

theorem loadA_eq_after (o : Source) :
    loadA o base s = (Operation.loadA o).after base s := loadA_eq o base s

theorem loadX_eq_after (o : Source) :
    loadX o base s = (Operation.loadX o).after base s := loadX_eq o base s

theorem loadY_eq_after (o : Source) :
    loadY o base s = (Operation.loadY o).after base s := loadY_eq o base s

theorem store_eq_after (o : MemOperand) (v : Byte) :
    store o v base s = (Operation.store o v).after base s := store_eq o v base s

theorem addWithCarry_eq_after (o : Source) :
    addWithCarry o base s = (Operation.addWithCarry o).after base s := addWithCarry_eq o base s

theorem subWithBorrow_eq_after (o : Source) :
    subWithBorrow o base s = (Operation.subWithBorrow o).after base s := subWithBorrow_eq o base s

theorem logic_eq_after (f : Byte → Byte → Byte) (o : Source) :
    logic f o base s = (Operation.logic f o).after base s := logic_eq f o base s

theorem testBits_eq_after (o : Source) :
    testBits o base s = (Operation.testBits o).after base s := testBits_eq o base s

theorem compareWith_eq_after (r : Byte) (o : Source) :
    compareWith r o base s = (Operation.compareWith r o).after base s := compareWith_eq r o base s

theorem addToMemory_eq_after (delta : Byte) (o : MemOperand) :
    addToMemory delta o base s = (Operation.addToMemory delta o).after base s := addToMemory_eq delta o base s

theorem shift_acc_eq_after (f : Byte → Bool → Shifted) :
    shift f .acc base s = (Operation.shiftAcc f).after base s := shift_acc_eq f base s

theorem shift_mem_eq_after (f : Byte → Bool → Shifted) (o : MemOperand) :
    shift f (.mem o) base s = (Operation.shiftMem f o).after base s := shift_mem_eq f o base s

theorem push_eq_after (v : Byte) : (push v s).addCycles base = (Operation.push v).after base s := by
  rw [push_eq]
  rfl

theorem branch_eq_after (taken : Bool) (off : Byte) :
    branch taken off base s = (Operation.branch taken off).after base s := by
  cases taken with
  | true => rfl
  | false => rfl

end Equations

/-- By mnemonic: the operation, and the equation that says what it leaves. -/
theorem exec_performs (i : Instr) (s : State) : ∃ op, Performs i op s := by
  cases i with
  | ldaImm | ldaZp | ldaZpx | ldaAbs | ldaAbx | ldaAby | ldaIzx | ldaIzy =>
    exact ⟨_, congrArg Host.Outcome.next (loadA_eq_after _ s _), rfl, rfl⟩
  | ldxImm | ldxZp | ldxZpy | ldxAbs | ldxAby =>
    exact ⟨_, congrArg Host.Outcome.next (loadX_eq_after _ s _), rfl, rfl⟩
  | ldyImm | ldyZp | ldyZpx | ldyAbs | ldyAbx =>
    exact ⟨_, congrArg Host.Outcome.next (loadY_eq_after _ s _), rfl, rfl⟩
  | txa => exact ⟨.loadA (.imm s.x), rfl, rfl, rfl⟩
  | tya => exact ⟨.loadA (.imm s.y), rfl, rfl, rfl⟩
  | tax => exact ⟨.loadX (.imm s.a), rfl, rfl, rfl⟩
  | tsx => exact ⟨.loadX (.imm s.sp), rfl, rfl, rfl⟩
  | inx => exact ⟨.loadX (.imm (s.x + 1)), rfl, rfl, rfl⟩
  | dex => exact ⟨.loadX (.imm (s.x - 1)), rfl, rfl, rfl⟩
  | tay => exact ⟨.loadY (.imm s.a), rfl, rfl, rfl⟩
  | iny => exact ⟨.loadY (.imm (s.y + 1)), rfl, rfl, rfl⟩
  | dey => exact ⟨.loadY (.imm (s.y - 1)), rfl, rfl, rfl⟩
  | staZp | staZpx | staAbs | staAbx | staAby | staIzx | staIzy | stxZp | stxZpy | stxAbs | styZp | styZpx | styAbs =>
    exact ⟨_, congrArg Host.Outcome.next (store_eq_after _ s _ _), rfl, rfl⟩
  | adcImm | adcZp | adcZpx | adcAbs | adcAbx | adcAby | adcIzx | adcIzy =>
    exact ⟨_, congrArg Host.Outcome.next (addWithCarry_eq_after _ s _), rfl, rfl⟩
  | sbcImm | sbcZp | sbcZpx | sbcAbs | sbcAbx | sbcAby | sbcIzx | sbcIzy =>
    exact ⟨_, congrArg Host.Outcome.next (subWithBorrow_eq_after _ s _), rfl, rfl⟩
  | andImm | andZp | andZpx | andAbs | andAbx | andAby | andIzx | andIzy
    | oraImm | oraZp | oraZpx | oraAbs | oraAbx | oraAby | oraIzx | oraIzy
    | eorImm | eorZp | eorZpx | eorAbs | eorAbx | eorAby | eorIzx | eorIzy =>
    exact ⟨_, congrArg Host.Outcome.next (logic_eq_after _ s _ _), rfl, rfl⟩
  | bitZp | bitAbs => exact ⟨_, congrArg Host.Outcome.next (testBits_eq_after _ s _), rfl, rfl⟩
  | cmpImm | cmpZp | cmpZpx | cmpAbs | cmpAbx | cmpAby | cmpIzx | cmpIzy | cpxImm | cpxZp | cpxAbs
    | cpyImm | cpyZp | cpyAbs =>
    exact ⟨_, congrArg Host.Outcome.next (compareWith_eq_after _ s _ _), rfl, rfl⟩
  | incZp | incZpx | incAbs | incAbx | decZp | decZpx | decAbs | decAbx =>
    exact ⟨_, congrArg Host.Outcome.next (addToMemory_eq_after _ s _ _), rfl, rfl⟩
  | aslAcc | lsrAcc | rolAcc | rorAcc => exact ⟨_, congrArg Host.Outcome.next (shift_acc_eq_after _ s _), rfl, rfl⟩
  | aslZp | aslZpx | aslAbs | aslAbx | lsrZp | lsrZpx | lsrAbs | lsrAbx | rolZp | rolZpx | rolAbs | rolAbx
    | rorZp | rorZpx | rorAbs | rorAbx =>
    exact ⟨_, congrArg Host.Outcome.next (shift_mem_eq_after _ s _ _), rfl, rfl⟩
  | pha | php => exact ⟨_, congrArg Host.Outcome.next (push_eq_after _ s _), rfl, rfl⟩
  | pla => exact ⟨.pullA, rfl, rfl, rfl⟩
  | plp => exact ⟨.pullFlags, rfl, rfl, rfl⟩
  | txs => exact ⟨.setSp s.x, rfl, rfl, rfl⟩
  | clc => exact ⟨.setC false, rfl, rfl, rfl⟩
  | sec => exact ⟨.setC true, rfl, rfl, rfl⟩
  | cli => exact ⟨.setI false, rfl, rfl, rfl⟩
  | sei => exact ⟨.setI true, rfl, rfl, rfl⟩
  | cld => exact ⟨.setD false, rfl, rfl, rfl⟩
  | sed => exact ⟨.setD true, rfl, rfl, rfl⟩
  | clv => exact ⟨.clearV, rfl, rfl, rfl⟩
  | nop => exact ⟨.idle, rfl, rfl, rfl⟩
  | jmpAbs w => exact ⟨.jump w, rfl, rfl, rfl⟩
  | jmpInd ptr => exact ⟨.jumpIndirect ptr, exec_jmpInd ptr s, rfl, rfl⟩
  | jsr w => exact ⟨.call w, (exec_jsr w s).trans (by rw [pushAddr_eq]; rfl), rfl, rfl⟩
  | rts => exact ⟨.ret, exec_rts s, rfl, rfl⟩
  | brk => exact ⟨.trap, (exec_brk s).trans (by rw [takeTrap_eq]; rfl), rfl, rfl⟩
  | rti => exact ⟨.trapReturn, exec_rti s, rfl, rfl⟩
  | bcc | bcs | beq | bne | bmi | bpl | bvc | bvs =>
    exact ⟨_, congrArg Host.Outcome.next (branch_eq_after _ s _ _), rfl, rfl⟩

theorem exec_answers_next (i : Instr) (s : State) : ∃ t, exec i s = .next t := by
  obtain ⟨op, hop⟩ := exec_performs i s
  exact ⟨_, hop.exec_eq⟩

/-- What `exec` answers is what the operation leaves. -/
theorem exec_next_cases {i : Instr} {s t : State} (h : exec i s = .next t) :
    ∃ op, Performs i op s ∧ t = op.after (s.baseCycles i.opcode) s := by
  obtain ⟨op, hop⟩ := exec_performs i s
  rw [hop.exec_eq, Host.Outcome.next.injEq] at h
  exact ⟨op, hop, h.symm⟩

/-! ### The rows of the opcode map (R55, R59) -/

/-- Each instruction has a row, under its opcode byte, with its mnemonic and mode. -/
theorem lookup_opcode (i : Instr) :
    ∃ row, lookup i.opcode = some row ∧ row.mnemonic = i.mnemonic ∧ row.mode = i.mode := by
  obtain ⟨row, hrow, heq⟩ := Option.map_eq_some_iff.mp (Laws.TableRow.all i).1
  simp only [Prod.mk.injEq] at heq
  exact ⟨row, hrow, heq.2⟩

theorem opcode_of_mnemonic_brk {i : Instr} (h : i.mnemonic = .brk) : i.opcode = 0x00 := by
  have hrows : ∀ r ∈ opcodeMap, r.mnemonic = .brk → r.opcode = 0x00 := by
    simp only [opcodeMap, List.forall_mem_append]
    decide
  obtain ⟨row, hrow, hm, -⟩ := lookup_opcode i
  rw [← (lookup_some hrow).1]
  exact hrows row (List.mem_of_find?_eq_some hrow) (hm.trans h)

/-- The stars of the opcode map and its column of branches, as R59 tells them. -/
theorem allowedExtra_of_mem_opcodeMap : ∀ r ∈ opcodeMap,
    (if r.cross = true then 1 else if r.mode = .rel then 2 else 0) = allowedExtra r.mnemonic r.mode := by
  simp only [opcodeMap, List.forall_mem_append]
  decide

end Sys2Proof.Machine
end

section
/-! PROOFS. The step (60_exceptions.md R122, R125): a fetch, then `exec` of the instruction the fetched bytes
encode, or the logged fault. -/

namespace Sys2Proof.Machine

/-! ### The step (R122, R125) -/

/-- The state after the fetch of `n` bytes: PC is past them, and each fetch from $D030 is a draw (R51). -/
def fetched (n : Nat) (s : State) : State :=
  { s with pc := s.pc + BitVec.ofNat 16 n, draws := s.draws + fetchDraws n s.pc }

/-- An implemented opcode byte: the step is `exec` of an instruction with that opcode, past its bytes. -/
theorem step_implemented {s : State} {row : OpcodeRow} (h : lookup (busRead s s.pc) = some row) :
    ∃ i, i.opcode = busRead s s.pc ∧ step s = exec i (fetched i.length s) := by
  obtain ⟨i, hfetch, hop⟩ := fetchInstr_implemented h
  refine ⟨i, hop, ?_⟩
  rw [step, hfetch, fetchBytes_state s (length_cases i), fetched]

/-- The state an unimplemented opcode leaves (R125). -/
def faulted (s : State) : State := { s with
  pc := s.pc + 1, draws := s.draws + drawsAt s.pc
  faultLog := s.faultLog ++ [.unimplementedOpcode (busRead s s.pc) s.pc] }

theorem step_unimplemented {s : State} (h : lookup (busRead s s.pc) = none) : step s = .next (faulted s) := by
  rw [step, fetchInstr_unimplemented h, afterFetch8_eq]
  rfl

/-- The two ways a step goes. -/
theorem step_next_cases {s t : State} (h : step s = .next t) :
    (∃ i op, i.opcode = busRead s s.pc ∧ Performs i op (fetched i.length s) ∧
      t = op.after (s.baseCycles i.opcode) (fetched i.length s)) ∨
    (lookup (busRead s s.pc) = none ∧ t = faulted s) := by
  cases hrow : lookup (busRead s s.pc) with
  | none =>
    rw [step_unimplemented hrow, Host.Outcome.next.injEq] at h
    exact .inr ⟨rfl, h.symm⟩
  | some row =>
    obtain ⟨i, hop, hstep⟩ := step_implemented hrow
    obtain ⟨op, hperf, ht⟩ := exec_next_cases (hstep.symm.trans h)
    exact .inl ⟨i, op, hop, hperf, ht⟩

/-! ### The step of decoded bytes (R51) -/

/-- The bytes of a fetch are the first of the three at PC. -/
theorem fetchBytes_eq_take (s : State) {n : Nat} (hn : n = 1 ∨ n = 2 ∨ n = 3) :
    (fetchBytes n s).1 = [busRead s s.pc, busRead s (s.pc + 1), busRead s (s.pc + 2)].take n := by
  obtain ⟨h1, h2, h3⟩ := fetchBytes_bytes s
  obtain rfl | rfl | rfl := hn
  · exact h1
  · exact h2
  · exact h3

/-- Settles O30: the fetch takes the instruction's own bytes, which are its encoding. -/
theorem stepRunsTheDecodedInstruction : Obligations.StepRunsTheDecodedInstruction := by
  intro s i rest hdec
  obtain ⟨hbytes, hlen, -⟩ := encodeOfDecode _ rest i hdec
  have hop : busRead s s.pc = i.opcode := (List.cons.inj hbytes).1
  have hfetched : (fetchBytes i.length s).1 = encode i := by
    rw [fetchBytes_eq_take s (length_cases i), hbytes, List.take_left' hlen]
  have hdecoded : decode (encode i) = .ok (i, []) := by
    simpa only [List.append_nil] using decodesTo_encode i []
  rw [step, fetchInstr, hop, fetchLength_opcode, hfetched, hdecoded, fetchBytes_state s (length_cases i)]

/-- Settles O32: the two ways a step goes both answer a state. -/
theorem everyStepAnswersNext : Obligations.EveryStepAnswersNext := by
  refine ⟨exec_answers_next, fun s => ?_⟩
  cases hrow : lookup (busRead s s.pc) with
  | none => exact ⟨faulted s, step_unimplemented hrow⟩
  | some row =>
    obtain ⟨i, -, hstep⟩ := step_implemented hrow
    obtain ⟨t, hexec⟩ := exec_answers_next i (fetched i.length s)
    exact ⟨t, hstep.trans hexec⟩

end Sys2Proof.Machine
end

section
/-! PROOFS. What all instructions keep: the writers of each flag and register (10_state.md R14 to R18), the writers of
memory, and the cycles (R59). -/

namespace Sys2Proof.Machine

/-! ### The writers of each register and flag (R14 to R18) -/

/-- All of the operation's mnemonics stand in the list. -/
def Operation.within (op : Operation) (l : List Mnemonic) : Bool := op.mnemonics.all l.contains

theorem mnemonic_of_accumulatorShift : ∀ i ∈ [Instr.aslAcc, .lsrAcc, .rolAcc, .rorAcc],
    i.mnemonic ∈ [Mnemonic.asl, .lsr, .rol, .ror] := by
  decide

theorem Operation.mnemonic_mem {op : Operation} {i : Instr} (h : op.covers i = true) : i.mnemonic ∈ op.mnemonics := by
  unfold Operation.covers at h
  split at h
  · exact mnemonic_of_accumulatorShift i (List.contains_iff_mem.mp h)
  · exact List.contains_iff_mem.mp h

/-- What an operation keeps, or has its writers in a list, is kept by the instructions not listed. -/
theorem Performs.kept {i : Instr} {op : Operation} {s : State} (h : Performs i op s) {l : List Mnemonic} {kept : Prop}
    (hop : op.within l = true ∨ kept) (hi : i.mnemonic ∉ l) : kept := by
  refine hop.resolve_left fun hl => hi ?_
  exact List.contains_iff_mem.mp (List.all_eq_true.mp hl _ (Operation.mnemonic_mem h.covers))

/-- By the flags an operation writes: N and Z; these and C; with V; the flags of the status byte; one flag; none. -/
theorem Operation.flags_kept (op : Operation) (s : State) :
    (op.within writersNZ = true ∨ (op.flagsAfter s).n = s.flags.n ∧ (op.flagsAfter s).z = s.flags.z) ∧
    (op.within [.adc, .sbc, .bit, .clv, .plp, .rti] = true ∨ (op.flagsAfter s).v = s.flags.v) ∧
    (op.within [.brk] = true ∨ (op.flagsAfter s).b = s.flags.b) ∧
    (op.within [.cld, .sed, .plp, .rti] = true ∨ (op.flagsAfter s).d = s.flags.d) ∧
    (op.within [.cli, .sei, .brk, .plp, .rti] = true ∨ (op.flagsAfter s).i = s.flags.i) ∧
    (op.within writersC = true ∨ (op.flagsAfter s).c = s.flags.c) := by
  cases op with
  | loadA | loadX | loadY | logic | addToMemory | pullA =>
    exact ⟨.inl rfl, .inr rfl, .inr rfl, .inr rfl, .inr rfl, .inr rfl⟩
  | compareWith | shiftAcc | shiftMem => exact ⟨.inl rfl, .inr rfl, .inr rfl, .inr rfl, .inr rfl, .inl rfl⟩
  | testBits => exact ⟨.inl rfl, .inl rfl, .inr rfl, .inr rfl, .inr rfl, .inr rfl⟩
  | addWithCarry | subWithBorrow => exact ⟨.inl rfl, .inl rfl, .inr rfl, .inr rfl, .inr rfl, .inl rfl⟩
  | pullFlags | trapReturn => exact ⟨.inl rfl, .inl rfl, .inr rfl, .inl rfl, .inl rfl, .inl rfl⟩
  | trap => exact ⟨.inr ⟨rfl, rfl⟩, .inr rfl, .inl rfl, .inr rfl, .inl rfl, .inr rfl⟩
  | setC => exact ⟨.inr ⟨rfl, rfl⟩, .inr rfl, .inr rfl, .inr rfl, .inr rfl, .inl rfl⟩
  | setI => exact ⟨.inr ⟨rfl, rfl⟩, .inr rfl, .inr rfl, .inr rfl, .inl rfl, .inr rfl⟩
  | setD => exact ⟨.inr ⟨rfl, rfl⟩, .inr rfl, .inr rfl, .inl rfl, .inr rfl, .inr rfl⟩
  | clearV => exact ⟨.inr ⟨rfl, rfl⟩, .inl rfl, .inr rfl, .inr rfl, .inr rfl, .inr rfl⟩
  | store | push | setSp | idle | jump | jumpIndirect | call | ret | branch =>
    exact ⟨.inr ⟨rfl, rfl⟩, .inr rfl, .inr rfl, .inr rfl, .inr rfl, .inr rfl⟩

/-- Settles O35: each flag is kept by every operation whose mnemonics are not its writers. -/
theorem flagsChangeOnlyByTheirWriters : Obligations.FlagsChangeOnlyByTheirWriters := by
  intro i s t hexec
  obtain ⟨op, hop, rfl⟩ := exec_next_cases hexec
  obtain ⟨hnz, hv, hb, hd, hi, hc⟩ := op.flags_kept s
  exact ⟨hop.kept hnz, hop.kept hv, fun h => hop.kept hb (List.mem_singleton.not.mpr h), hop.kept hd, hop.kept hi,
    hop.kept hc⟩

/-- By the registers an operation writes, of X, Y, SP and PC: one of them, SP with PC, or none. -/
theorem Operation.registers_kept (op : Operation) (s : State) :
    (op.within [.ldx, .tax, .tsx, .inx, .dex] = true ∨ op.xAfter s = s.x) ∧
    (op.within [.ldy, .tay, .iny, .dey] = true ∨ op.yAfter s = s.y) ∧
    (op.within [.txs, .pha, .php, .pla, .plp, .jsr, .rts, .rti, .brk] = true ∨ op.spAfter s = s.sp) ∧
    (op.within controlTransfers = true ∨ op.pcAfter s = s.pc) := by
  cases op with
  | loadX => exact ⟨.inl rfl, .inr rfl, .inr rfl, .inr rfl⟩
  | loadY => exact ⟨.inr rfl, .inl rfl, .inr rfl, .inr rfl⟩
  | push | pullA | pullFlags | setSp => exact ⟨.inr rfl, .inr rfl, .inl rfl, .inr rfl⟩
  | jump | jumpIndirect | branch => exact ⟨.inr rfl, .inr rfl, .inr rfl, .inl rfl⟩
  | call | ret | trap | trapReturn => exact ⟨.inr rfl, .inr rfl, .inl rfl, .inl rfl⟩
  | loadA | store | addWithCarry | subWithBorrow | logic | testBits | compareWith | addToMemory | shiftAcc | shiftMem
    | setC | setI | setD | clearV | idle => exact ⟨.inr rfl, .inr rfl, .inr rfl, .inr rfl⟩

/-- A shift writes A in its accumulator form only, so here the instruction counts, not its mnemonic. -/
theorem Performs.a_kept {i : Instr} {op : Operation} {s : State} (h : Performs i op s)
    (hi : i.mnemonic ∉ [.lda, .pla, .txa, .tya, .adc, .sbc, .and, .ora, .eor])
    (hacc : i ∉ [.aslAcc, .lsrAcc, .rolAcc, .rorAcc]) : op.aAfter s = s.a := by
  cases op with
  | loadA | addWithCarry | subWithBorrow | logic | pullA => exact h.kept (.inl rfl) hi
  | shiftAcc => exact absurd (List.contains_iff_mem.mp h.covers) hacc
  | _ => rfl

/-- Settles O36: each register is kept by every operation whose instructions are not its writers. -/
theorem registersChangeOnlyByTheirWriters : Obligations.RegistersChangeOnlyByTheirWriters := by
  intro i s t hexec
  obtain ⟨op, hop, rfl⟩ := exec_next_cases hexec
  obtain ⟨hx, hy, hsp, -⟩ := op.registers_kept s
  exact ⟨hop.a_kept, hop.kept hx, hop.kept hy, hop.kept hsp⟩

theorem exec_pc_of_not_transfer {i : Instr} {s t : State} (h : exec i s = .next t)
    (hi : i.mnemonic ∉ controlTransfers) : t.pc = s.pc := by
  obtain ⟨op, hop, rfl⟩ := exec_next_cases h
  obtain ⟨-, -, -, hpc⟩ := op.registers_kept s
  exact hop.kept hpc hi

/-- Settles O34: a step starts `exec` at PCnext, and only control transfers move PC from there. -/
theorem onlyControlTransfersMovePc : Obligations.OnlyControlTransfersMovePc := by
  refine ⟨fun i s t => exec_pc_of_not_transfer, fun s t i rest hdec hi hstep => ?_⟩
  rw [stepRunsTheDecodedInstruction s i rest hdec] at hstep
  obtain ⟨-, -, hlen⟩ := Laws.TableRow.all i
  rw [exec_pc_of_not_transfer hstep hi, BitVec.toNat_add, hlen, BitVec.toNat_ofNat, Nat.add_mod_mod]

/-- No operation clears B. -/
theorem Operation.flagsAfter_b (op : Operation) {s : State} (h : s.flags.b = true) : (op.flagsAfter s).b = true := by
  cases op with
  | trap => rfl
  | _ => exact h

/-- Settles O37: of all operations the trap alone writes B, and sets it. -/
theorem breakFlagIsSticky : Obligations.BreakFlagIsSticky := by
  intro s t hstep
  obtain ⟨i, op, hop, hperf, rfl⟩ | ⟨-, rfl⟩ := step_next_cases hstep
  · refine ⟨op.flagsAfter_b (s := fetched i.length s), fun hclear hset => ?_⟩
    rw [← hop]
    by_contra hne
    have hnot : i.mnemonic ≠ .brk := mt opcode_of_mnemonic_brk hne
    obtain ⟨-, -, hkept, -⟩ := flagsChangeOnlyByTheirWriters i _ _ hperf.exec_eq
    have hset' : s.flags.b = true := (hkept hnot).symm.trans hset
    rw [hclear] at hset'
    cases hset'
  · exact ⟨id, fun hclear hset => absurd (hclear.symm.trans hset) Bool.false_ne_true⟩

/-! ### The writers of memory (R23, R33) -/

theorem Operation.memory_kept (op : Operation) (s : State) :
    op.within [.sta, .stx, .sty, .inc, .dec, .asl, .lsr, .rol, .ror, .pha, .php, .jsr, .brk] = true ∨
      op.ramAfter s = s.ram ∧ op.vicAfter s = s.vic := by
  cases op with
  | store | addToMemory | shiftMem | push | call | trap => exact .inl rfl
  | _ => exact .inr ⟨rfl, rfl⟩

/-- Settles O38: the operations that write memory belong to the listed instructions. -/
theorem onlyStoringInstructionsWriteMemory : Obligations.OnlyStoringInstructionsWriteMemory := by
  intro i s t hexec hi
  obtain ⟨op, hop, rfl⟩ := exec_next_cases hexec
  exact hop.kept (op.memory_kept s) hi

/-- RAM `n` comes from `m` by writes outside the VIC window. -/
inductive RamWritten (m : Memory) : Memory → Prop where
  | refl : RamWritten m m
  | write {n : Memory} (h : RamWritten m n) (a : Addr) (v : Byte) (ha : ¬ InVicWindow a) : RamWritten m (n.write a v)

theorem RamWritten.wf {m n : Memory} (h : RamWritten m n) (hm : m.wf = true) : n.wf = true := by
  induction h with
  | refl => exact hm
  | write _ a v _ ih => exact Memory.write_wf ih a v

theorem RamWritten.read_underVic {m n : Memory} (h : RamWritten m n) {a : Addr} (ha : InVicWindow a) :
    n.read a = m.read a := by
  induction h with
  | refl => rfl
  | write _ b v hb ih => rw [Memory.read_write_other _ v (fun hab : a = b => hb (hab ▸ ha)), ih]

theorem ramAfter_written (s : State) (a : Addr) (v : Byte) : RamWritten s.ram (ramAfter s a v) := by
  unfold ramAfter
  split
  · exact .refl
  · next hr => exact .write .refl a v (fun hw => hr (region_vicWindow.mpr hw))

/-- A push is a write in the stack page, and no other operation writes but through the Bus. -/
theorem Operation.ramAfter_written (op : Operation) (s : State) : RamWritten s.ram (op.ramAfter s) := by
  have hstack := not_inVicWindow_stackAddr
  unfold Operation.ramAfter
  split
  · exact Machine.ramAfter_written s _ _
  · exact Machine.ramAfter_written s _ _
  · exact Machine.ramAfter_written s _ _
  · exact .write .refl _ _ (hstack _)
  · exact .write (.write .refl _ _ (hstack _)) _ _ (hstack _)
  · exact .write (.write (.write .refl _ _ (hstack _)) _ _ (hstack _)) _ _ (hstack _)
  · exact .refl

theorem step_ramWritten {s t : State} (h : step s = .next t) : RamWritten s.ram t.ram := by
  obtain ⟨i, op, -, -, rfl⟩ | ⟨-, rfl⟩ := step_next_cases h
  · exact op.ramAfter_written (fetched i.length s)
  · exact .refl

theorem step_sameVideo {s t : State} (h : step s = .next t) : SameVideo s t := by
  obtain ⟨i, op, -, -, rfl⟩ | ⟨-, rfl⟩ := step_next_cases h
  · exact ⟨rfl, rfl, rfl, rfl⟩
  · exact ⟨rfl, rfl, rfl, rfl⟩

/-- Settles O46: RAM is written only outside the window. -/
theorem cellsUnderVicWindowNeverWritten : Obligations.CellsUnderVicWindowNeverWritten :=
  fun _ _ _ hstep ha => (step_ramWritten hstep).read_underVic ha

/-- Settles O52: neither an operation nor the fault writes the VideoChip's state. -/
theorem stepLeavesVideoAlone : Obligations.StepLeavesVideoAlone :=
  fun _ _ => step_sameVideo

/-! ### Cycles (R59) -/

theorem Source.extra_le (o : Source) (s : State) : o.extra s ≤ if o.indexes then 1 else 0 := by
  rw [extra_eq_pageCrossCost]
  unfold pageCrossCost
  split
  · split <;> simp [Source.indexes]
  · split <;> simp [Source.indexes]
  · split <;> simp [Source.indexes]
  · exact Nat.zero_le _

theorem Operation.extra_le (op : Operation) (s : State) : op.extra s ≤ op.maxExtra := by
  cases op with
  | loadA o | loadX o | loadY o | addWithCarry o | subWithBorrow o | logic _ o | testBits o | compareWith _ o =>
    exact o.extra_le s
  | branch taken off =>
    cases taken with
    | false => exact Nat.zero_le 2
    | true =>
      change (if page s.pc = page (branchTarget s.pc off) then 1 else 2) ≤ 2
      split <;> decide
  | _ => exact Nat.zero_le _

/-- The base count and the extra of the operation, which the cell of the map allows. -/
theorem exec_cycles {i : Instr} {s t : State} (h : exec i s = .next t) : t.cycleTable = s.cycleTable ∧
    ∃ row, lookup i.opcode = some row ∧ sparseGet 0 defaultCycles i.opcode.toNat = row.cycles ∧
      s.cyc + s.baseCycles i.opcode ≤ t.cyc ∧
      t.cyc ≤ s.cyc + s.baseCycles i.opcode + (if row.cross = true then 1 else if row.mode = .rel then 2 else 0) := by
  obtain ⟨op, hop, rfl⟩ := exec_next_cases h
  obtain ⟨row, hrow, hm, hmode⟩ := lookup_opcode i
  refine ⟨rfl, row, hrow, defaultCycles_eq (by rw [hrow, Option.map_some]), ?_, ?_⟩
  · change _ ≤ s.cyc + (s.baseCycles i.opcode + op.extra s)
    omega
  · have hextra := op.extra_le s
    rw [allowedExtra_of_mem_opcodeMap row (List.mem_of_find?_eq_some hrow), hm, hmode, ← hop.maxExtra]
    change s.cyc + (s.baseCycles i.opcode + op.extra s) ≤ _
    omega

end Sys2Proof.Machine
end

section
/-! PROOFS. The host's operations (70_reset_and_hazards.md) and the invariant: what each accepted call leaves, by
operation. -/

namespace Sys2Proof.Machine

/-! ### The invariant -/

/-- Settles O39: RAM is written through the Bus alone, and the frame buffers not at all. -/
theorem stepKeepsInvariant : Obligations.StepKeepsInvariant := by
  intro s t ⟨hram, hfront, hback⟩ hstep
  obtain ⟨-, -, hf, hb⟩ := step_sameVideo hstep
  exact ⟨(step_ramWritten hstep).wf hram, hf ▸ hfront, hb ▸ hback⟩

theorem writeBytes_ram_wf (a : Nat) (bytes : List Byte) {s : State} (h : s.ram.wf = true) :
    (writeBytes a bytes s).ram.wf = true := by
  induction bytes generalizing a s with
  | nil => exact h
  | cons b rest ih => exact ih (a + 1) (busWrite_ram_wf h _ b)

theorem writeBytes_inv (a : Nat) (bytes : List Byte) {s : State} (h : s.Inv) : (writeBytes a bytes s).Inv := by
  obtain ⟨hram, hfront, hback⟩ := h
  rw [State.Inv, writeBytes_sameButMemory a bytes s]
  exact ⟨writeBytes_ram_wf a bytes hram, hfront, hback⟩

theorem advance_inv {s : State} (h : s.Inv) : (advance s).Inv := by
  obtain ⟨hram, hfront, hback⟩ := h
  rw [advance_eq]
  refine ⟨hram, hfront, ?_⟩
  rw [back_advance]
  split
  · exact hfront
  · exact hback

theorem paint_inv (p : Config.VideoParams) {s : State} (h : s.Inv) : (paint p s).Inv := by
  obtain ⟨hram, hfront, hback⟩ := h
  rw [paint_eq]
  exact ⟨hram, paint_wf p hfront, hback⟩

theorem pixelClocks_inv (p : Config.VideoParams) (k : Nat) {s : State} (h : s.Inv) : (pixelClocks p k s).Inv := by
  induction k generalizing s with
  | zero => exact h
  | succ k ih => exact ih (advance_inv (paint_inv p h))

theorem initialised_inv (q : ResetParams) (s : State) : (initialised q s).Inv :=
  ⟨Memory.ofList_wf q.ram, FrameBuffer.ofList_wf q.front, FrameBuffer.ofList_wf q.back⟩

/-! ### Reset -/

/-- Settles O40: reset lists no cell and no pixel. -/
theorem invariantHoldsAtReset : Obligations.InvariantHoldsAtReset := ⟨rfl, rfl, rfl⟩

/-- Settles O49: RAM and the buffers by the laws of lists laid over zeros, every other field by definition. -/
theorem resetLeavesTheDefaults : Obligations.ResetLeavesTheDefaults := by
  refine ⟨fun q s => ⟨rfl, rfl, rfl, rfl, rfl, rfl, rfl, rfl, Memory.read_ofList q.ram, rfl, rfl, rfl,
      fun fx fy _ _ => FrameBuffer.pixel_ofList q.front fx fy, fun fx fy _ _ => FrameBuffer.pixel_ofList q.back fx fy,
      rfl, rfl⟩, fun _ _ _ => rfl, fun _ => rfl, rfl, rfl, rfl, rfl, rfl, rfl, rfl, rfl, rfl, rfl, fun _ => rfl,
    fun k hk => Vector.getElem_replicate hk, fun _ _ => ⟨rfl, rfl⟩, rfl, rfl⟩

/-! ### The host's operations (R151) -/

theorem withReply_next {r : Result} {reply reply' : Reply} {t : State}
    (h : withReply r reply = .next (t, reply')) : r = .next t ∧ reply = reply' := by
  cases r with
  | next s =>
    simp only [withReply, Host.Outcome.next.injEq, Prod.mk.injEq] at h
    exact ⟨congrArg _ h.1, h.2⟩
  | fault e => cases h
  | refused e => cases h

/-- Where an accepted call of the host leads, and what it replies. -/
inductive HostStep (p : RunParams) (s : State) : HostOp → State → Reply → Prop where
  | initialise : HostStep p s .initialise (initialised p.reset s) .nothing
  | loadBytes (a : Nat) (bytes : List Byte) : HostStep p s (.loadBytes a bytes) (writeBytes a bytes s) .nothing
  | setProgramCounter (a : Nat) : HostStep p s (.setProgramCounter a) (s.setPc (BitVec.ofNat 16 a)) .nothing
  | step {t : State} (h : step s = .next t) : HostStep p s .step t (.success (stepReturns s))
  | render (n : Nat) : HostStep p s (.render n) (render p.video n s) .nothing
  | renderFrame : HostStep p s .renderFrame s (.frame s.back)
  | readRegisters : HostStep p s .readRegisters s (.registers (Machine.readRegisters s))

theorem hostCall_cases {p : RunParams} {op : HostOp} {s t : State} {r : Reply} (h : hostCall p op s = .next (t, r)) :
    HostStep p s op t r := by
  cases op with
  | initialise =>
    cases h
    exact .initialise
  | loadBytes a bytes =>
    obtain ⟨hload, rfl⟩ := withReply_next h
    unfold Machine.loadBytes at hload
    split at hload
    · cases hload
      exact .loadBytes a bytes
    · cases hload
  | setProgramCounter a =>
    obtain ⟨hset, rfl⟩ := withReply_next h
    unfold Machine.setProgramCounter at hset
    split at hset
    · cases hset
      exact .setProgramCounter a
    · cases hset
  | step =>
    obtain ⟨hstep, rfl⟩ := withReply_next h
    exact .step hstep
  | render n =>
    cases h
    exact .render n
  | renderFrame =>
    cases h
    exact .renderFrame
  | readRegisters =>
    cases h
    exact .readRegisters

/-- Settles O41: by operation; a step keeps the invariant by O39. -/
theorem hostOperationsKeepInvariant : Obligations.HostOperationsKeepInvariant := by
  intro p op s t r hinv hcall
  cases hostCall_cases hcall with
  | initialise => exact initialised_inv p.reset s
  | loadBytes a bytes => exact writeBytes_inv a bytes hinv
  | setProgramCounter a => exact hinv
  | step hstep => exact stepKeepsInvariant s t hinv hstep
  | render n => exact pixelClocks_inv p.video (8 * n) hinv
  | renderFrame => exact hinv
  | readRegisters => exact hinv

/-! ### The table of base counts and the fault log (R22, R28) -/

theorem step_cycleTable {s t : State} (h : step s = .next t) : t.cycleTable = s.cycleTable := by
  obtain ⟨i, op, -, -, rfl⟩ | ⟨-, rfl⟩ := step_next_cases h
  · rfl
  · rfl

/-- Pixel clocks change the raster position and the frame buffers alone (R139). -/
theorem pixelClocks_sameButVideo (p : Config.VideoParams) (k : Nat) (s : State) : pixelClocks p k s =
    { s with rx := (pixelClocks p k s).rx, ry := (pixelClocks p k s).ry,
             front := (pixelClocks p k s).front, back := (pixelClocks p k s).back } := by
  induction k with
  | zero => rfl
  | succ k ih =>
    rw [pixelClocks_succ, advance_eq, paint_eq]
    generalize pixelClocks p k s = u at ih
    rw [ih]

/-- Settles O33: an instruction takes its operation's cycles, and no operation of the host writes the table. -/
theorem cyclesFollowTheOpcodeMap : Obligations.CyclesFollowTheOpcodeMap := by
  refine ⟨fun i s t => exec_cycles, fun p op s t r hcall => ?_⟩
  cases hostCall_cases hcall with
  | initialise => rfl
  | loadBytes a bytes => rw [writeBytes_sameButMemory a bytes s]
  | setProgramCounter a => rfl
  | step hstep => exact step_cycleTable hstep
  | render n => rw [render, pixelClocks_sameButVideo]
  | renderFrame => rfl
  | readRegisters => rfl

theorem stepReturns_eq_decide (s : State) : stepReturns s = decide (busRead s s.pc ∉ unimplementedBytes) := by
  rw [Bool.eq_iff_iff, stepReturns, Option.isSome_iff_ne_none, Ne, lookup_eq_none_iff, decide_eq_true_iff]

theorem step_faultLog {s t : State} (h : step s = .next t) : t.faultLog = s.faultLog ++
    (if stepReturns s = false then [.unimplementedOpcode (busRead s s.pc) s.pc] else []) := by
  obtain ⟨i, op, hop, -, rfl⟩ | ⟨hnone, rfl⟩ := step_next_cases h
  · obtain ⟨row, hrow, -⟩ := lookup_opcode i
    have hreturns : stepReturns s = true := by rw [stepReturns, ← hop, hrow, Option.isSome_some]
    rw [hreturns, if_neg Bool.true_eq_false_eq_False, List.append_nil]
    rfl
  · have hreturns : stepReturns s = false := by rw [stepReturns, hnone, Option.isSome_none]
    rw [if_pos hreturns, faulted]

/-- Settles O47: by operation; of all but the one that begins a new run, only a step can log an entry. -/
theorem faultLogOnlyGrows : Obligations.FaultLogOnlyGrows := by
  intro p op s t r hcall hop
  cases hostCall_cases hcall with
  | initialise => exact absurd rfl hop
  | loadBytes a bytes =>
    rw [writeBytes_sameButMemory a bytes s]
    simp
  | setProgramCounter a => simp
  | step hstep => simpa using step_faultLog hstep
  | render n =>
    rw [render, pixelClocks_sameButVideo]
    simp
  | renderFrame => simp
  | readRegisters => simp

/-! ### The answers of the host calls (R151 to R158) -/

/-- Settles O51: each call by its definition; a step answers by O32. -/
theorem hostCallsAnswer : Obligations.HostCallsAnswer := by
  intro p s
  refine ⟨rfl, fun _ _ => rfl, fun _ => rfl, fun a ha => ?_, fun a ha => ?_, rfl, rfl, ?_⟩
  · rw [hostCall, setProgramCounter, pcFits, decide_eq_true ha, if_pos rfl]
    rfl
  · rw [hostCall, setProgramCounter, pcFits, decide_eq_false ha.not_ge, if_neg Bool.false_ne_true]
    rfl
  · obtain ⟨t, hstep⟩ := everyStepAnswersNext.2 s
    exact ⟨t, hstep, by rw [hostCall, hstep, stepReturns_eq_decide, withReply]⟩

theorem call_step (p : RunParams) (r : RunPoint) :
    ∃ t, r.call p .step = .next ⟨t, some (decide (busRead r.state r.state.pc ∉ unimplementedBytes))⟩ := by
  obtain ⟨-, -, -, -, -, -, -, t, -, hcall⟩ := hostCallsAnswer p r.state
  exact ⟨t, by rw [RunPoint.call, hcall]; rfl⟩

/-- An accepted call at a point of a run: what the host knows of the last step follows from the reply. -/
theorem call_cases {p : RunParams} {op : HostOp} {r u : RunPoint} (h : r.call p op = .next u) :
    ∃ reply, HostStep p r.state op u.state reply ∧ u.lastStep = lastStepAfter op reply r.lastStep := by
  unfold RunPoint.call at h
  split at h
  · next t reply hhost =>
    cases h
    exact ⟨reply, hostCall_cases hhost, rfl⟩
  · cases h
  · cases h

/-- Only a step replies a Boolean, so of the other operations only the start of a new run touches what was known. -/
theorem faulted_of_call {p : RunParams} {op : HostOp} {r u : RunPoint} (hop : op ≠ .step)
    (h : r.call p op = .next u) : Faulted u ↔ Faulted r ∧ op ≠ .initialise := by
  obtain ⟨t, last⟩ := u
  obtain ⟨reply, hstep, rfl⟩ := call_cases h
  simp only [Faulted]
  cases hstep with
  | initialise => simp [lastStepAfter]
  | step => exact absurd rfl hop
  | loadBytes | setProgramCounter | render | renderFrame | readRegisters => simp [lastStepAfter]

/-- Settles O31: the bytes without a row are logged by the step, and a run knows of them by the step's Boolean alone. -/
theorem unimplementedOpcodeIsLogged : Obligations.UnimplementedOpcodeIsLogged := by
  refine ⟨fun s hop => ⟨step_unimplemented ((lookup_eq_none_iff _).mpr hop), ?_⟩, fun p r => ?_,
    fun p op r u => faulted_of_call⟩
  · rw [stepReturns_eq_decide, decide_eq_false (not_not.mpr hop)]
  · obtain ⟨t, hcall⟩ := call_step p r
    exact ⟨_, hcall, by simp [Faulted]⟩

end Sys2Proof.Machine
end

section
/-! PROOFS. Memory (20_memory.md): a read after a write, canonical RAM as data, the next fetch after a store, and the
effective addresses (30_encoding.md section 2). -/

namespace Sys2Proof.Machine

/-! ### A read after a write (R32 to R35, R44) -/

/-- A ROM's byte is the same in every state. -/
theorem busRead_rom {a : Addr} (h : region a = .basicRom ∨ region a = .kernalRom) (s t : State) :
    busRead t a = busRead s a := by
  obtain h | h := h
  · simp only [busRead, h]
  · simp only [busRead, h]

theorem region_cases (a : Addr) :
    region a = .ram ∨ region a = .vicWindow ∨ region a = .basicRom ∨ region a = .kernalRom := by
  cases region a <;> simp

/-- The register that an address of the window names, 48 for $D030. -/
theorem exists_register {a : Addr} (h : region a = .vicWindow) : ∃ k, k ≤ 48 ∧ a.toNat = 0xD000 + k := by
  obtain ⟨hlo, hhi⟩ := region_vicWindow.mp h
  exact ⟨a.toNat - 0xD000, by omega, by omega⟩

theorem busWrite_getElem (s : State) (a : Addr) (v : Byte) {k : Nat} (hk : k < 48) :
    (busWrite s a v).vic[k] = if a.toNat = 0xD000 + k then v else s.vic[k] := by
  simp only [busWrite_eq, vicAfter_getElem]

theorem not_inVicWindow_of_region {a : Addr} {r : Region} (h : region a = r) (hr : r ≠ .vicWindow) : ¬ InVicWindow a :=
  fun hw => hr (h.symm.trans (region_vicWindow.mpr hw))

/-- RAM takes the byte wherever the VIC window does not, under the ROM windows too (R34). -/
theorem ramAt_busWrite_same {s : State} (hwf : s.ram.wf = true) {a : Addr} (v : Byte) (ha : ¬ InVicWindow a) :
    ramAt (busWrite s a v) a = v := by
  rw [ramAt_busWrite hwf, if_pos ⟨rfl, ha⟩]

theorem busRead_busWrite_ram {s : State} (hwf : s.ram.wf = true) {a : Addr} (v : Byte) (ha : region a = .ram) :
    busRead (busWrite s a v) a = v := by
  rw [busRead_ram ha, ramAt_busWrite_same hwf v (not_inVicWindow_of_region ha (by decide))]

theorem busRead_busWrite_vic (s : State) {a : Addr} (v : Byte) (ha : region a = .vicWindow) (hne : a ≠ 0xD030) :
    busRead (busWrite s a v) a = v := by
  obtain ⟨k, hk, hak⟩ := exists_register ha
  have hlt : k < 48 := by bv_omega
  rw [busRead_vicWindow _ hk hak, vicRead_register _ hlt, busWrite_getElem s a v hlt, if_pos hak]

theorem busRead_busWrite_other {s : State} (hwf : s.ram.wf = true) {a b : Addr} (v : Byte) (h : b ≠ a) :
    busRead (busWrite s a v) b = busRead s b := by
  obtain hb | hb | hb := region_cases b
  · rw [busRead_ram hb, busRead_ram hb, ramAt_busWrite hwf, if_neg (fun hba => h hba.1)]
  · obtain ⟨k, hk, hbk⟩ := exists_register hb
    rw [busRead_vicWindow _ hk hbk, busRead_vicWindow _ hk hbk]
    obtain hlt | rfl := Nat.lt_or_eq_of_le hk
    · rw [vicRead_register _ hlt, vicRead_register _ hlt, busWrite_getElem s a v hlt, if_neg (by bv_omega)]
    · rw [vicRead_draw, vicRead_draw, busWrite_draws]
  · exact busRead_rom hb s _

/-- Settles O43: by the region of the address read. -/
theorem readAfterWrite : Obligations.ReadAfterWrite := by
  intro s a b v hwf
  refine ⟨busRead_busWrite_ram hwf v, busRead_busWrite_vic s v, fun hrom => ⟨busRead_rom hrom s _, ?_⟩,
    busRead_busWrite_other hwf v⟩
  obtain ha | ha := hrom
  · exact ramAt_busWrite_same hwf v (not_inVicWindow_of_region ha (by decide))
  · exact ramAt_busWrite_same hwf v (not_inVicWindow_of_region ha (by decide))

/-! ### Canonical forms as data (R23) -/

section Sparse

variable {α : Type} [DecidableEq α] {d : α} {bound lo : Nat} {l m : List (Nat × α)}

/-- A list that holds something else than the default at `k` is no canonical form from above `k`. -/
theorem not_sparseWf_above {k : Nat} (hread : sparseGet d m k ≠ d) : ¬ sparseWf d bound (k + 1) m = true :=
  fun hm => hread (sparseGet_below hm (Nat.lt_succ_self k))

/-- Canonical lists that hold the same at every key are one list: of two first keys, the lower would be missing in the
other list. -/
theorem sparse_ext (hl : sparseWf d bound lo l = true) (hm : sparseWf d bound lo m = true)
    (h : ∀ k, k < bound → sparseGet d l k = sparseGet d m k) : l = m := by
  have hhead (k : Nat) (w : α) (l : List (Nat × α)) : sparseGet d ((k, w) :: l) k = w := if_pos rfl
  induction l generalizing lo m with
  | nil =>
    cases m with
    | nil => rfl
    | cons e m =>
      obtain ⟨k, w⟩ := e
      obtain ⟨-, hk, hw, -⟩ := sparseWf_cons.mp hm
      rw [← hhead k w m, ← h k hk] at hw
      exact absurd rfl hw
  | cons e l ih =>
    obtain ⟨j, v⟩ := e
    obtain ⟨hlo, hj, hv, hl'⟩ := sparseWf_cons.mp hl
    cases m with
    | nil =>
      rw [← hhead j v l, h j hj] at hv
      exact absurd rfl hv
    | cons e m =>
      obtain ⟨k, w⟩ := e
      obtain ⟨-, hk, hw, hm'⟩ := sparseWf_cons.mp hm
      have hjread : sparseGet d ((k, w) :: m) j ≠ d := by rwa [← h j hj, hhead]
      have hkread : sparseGet d ((j, v) :: l) k ≠ d := by rwa [h k hk, hhead]
      obtain hlt | rfl | hlt := Nat.lt_trichotomy j k
      · exact absurd (sparseWf_cons.mpr ⟨hlt, hk, hw, hm'⟩) (not_sparseWf_above hjread)
      · have hvw : v = w := by rw [← hhead j v l, h j hj, hhead]
        rw [hvw, ih hl' hm' fun i hi => ?_]
        obtain hij | hij := Nat.lt_or_ge j i
        · have hread := h i hi
          rwa [sparseGet, sparseGet, if_neg hij.ne, if_neg hij.ne] at hread
        · rw [sparseGet_below hl' (Nat.lt_succ_of_le hij), sparseGet_below hm' (Nat.lt_succ_of_le hij)]
      · exact absurd (sparseWf_cons.mpr ⟨hlt, hj, hv, hl'⟩) (not_sparseWf_above hkread)

end Sparse

/-- Settles O44: canonical forms are sorted without repeats and hold no default, so what they read fixes them. -/
theorem canonicalMemoriesAreEqual : Obligations.CanonicalMemoriesAreEqual := by
  intro m n hm hn h
  refine sparse_ext hm hn fun k hk => ?_
  have hread := h (BitVec.ofNat 16 k)
  rwa [Memory.read, Memory.read, toNat_ofNat_addr hk] at hread

/-! ### The next fetch (R46) -/

theorem drawsAt_of_ne {a : Addr} (h : a ≠ 0xD030) : drawsAt a = 0 := if_neg h

/-- Settles O45: in RAM the byte stored is the byte fetched, and the step is NOP by O30; in ROM it is not. -/
theorem nextFetchSeesTheStore : Obligations.NextFetchSeesTheStore := by
  intro s hwf
  refine ⟨fun hram => ?_, fun hrom v => busRead_rom hrom s _⟩
  have hop : busRead (busWrite s s.pc 0xEA) (busWrite s s.pc 0xEA).pc = 0xEA := by
    rw [busWrite_pc, busRead_busWrite_ram hwf 0xEA hram]
  have hdraws : fetchDraws Instr.nop.length s.pc = 0 := by
    refine drawsAt_of_ne fun hpc => ?_
    rw [hpc] at hram
    exact absurd hram (by decide)
  rw [stepRunsTheDecodedInstruction _ .nop _ (by rw [hop]; rfl), exec_nop, busWrite_pc, hdraws]
  simp only [State.addCycles, State.baseCycles, busWrite_cyc, busWrite_draws, busWrite_cycleTable]
  rfl

/-! ### The self-jump (R158) -/

theorem step_atSelfJump {s : State} (h : AtSelfJump s) (h0 : s.pc ≠ 0xD030) (h1 : s.pc + 1 ≠ 0xD030)
    (h2 : s.pc + 2 ≠ 0xD030) : step s = .next (s.addCycles (s.baseCycles 0x4C)) := by
  obtain ⟨hop, hlo, hhi⟩ := h
  have hdec : decode [busRead s s.pc, busRead s (s.pc + 1), busRead s (s.pc + 2)] = .ok (.jmpAbs s.pc, []) := by
    rw [hop, hlo, hhi]
    exact decodesTo_encode (.jmpAbs s.pc) []
  have hdraws : fetchDraws (Instr.jmpAbs s.pc).length s.pc = 0 := by
    change drawsAt s.pc + drawsAt (s.pc + 1) + drawsAt (s.pc + 2) = 0
    rw [drawsAt_of_ne h0, drawsAt_of_ne h1, drawsAt_of_ne h2]
  rw [stepRunsTheDecodedInstruction s _ _ hdec, exec_jmpAbs, hdraws]
  rfl

theorem run_succ_of_next (M : Host.Core) {s t : M.State} (n : Nat) (h : M.step s = .next t) :
    M.run (n + 1) s = M.run n t := by
  simp only [Host.Core.run, h]

/-- Settles O48: one step leads to a self-jump again, with CYC up by JMP's base count. -/
theorem selfJumpIdles : Obligations.SelfJumpIdles := by
  intro n
  induction n with
  | zero => exact fun s _ _ _ _ => rfl
  | succ n ih =>
    intro s hself h0 h1 h2
    have hcyc : s.cyc + s.baseCycles 0x4C + s.baseCycles 0x4C * n = s.cyc + s.baseCycles 0x4C * (n + 1) := by
      rw [Nat.mul_succ, Nat.add_assoc, Nat.add_comm (s.baseCycles 0x4C)]
    refine (run_succ_of_next Sys2Proof.core n (step_atSelfJump hself h0 h1 h2)).trans
      ((ih (s.addCycles (s.baseCycles 0x4C)) hself h0 h1 h2).trans ?_)
    rw [← hcyc]
    rfl

/-! ### Addressing modes (R52) -/

theorem zext16_toNat (v : Byte) : (zext16 v).toNat = v.toNat :=
  BitVec.toNat_setWidth_of_le (by decide)

theorem zext16_eq_ofNat (v : Byte) : zext16 v = BitVec.ofNat 16 v.toNat :=
  (BitVec.ofNat_toNat 16 v).symm

theorem zeroPagePointer_toNat (s : State) (z : Byte) : (zeroPagePointer s z).toNat =
    256 * (ramAt s (BitVec.ofNat 16 ((z.toNat + 1) % 256))).toNat + (ramAt s (BitVec.ofNat 16 z.toNat)).toNat := by
  have hzp (v : Byte) : busRead s (zext16 v) = ramAt s (BitVec.ofNat 16 v.toNat) := by
    have hlow : (zext16 v).toNat < 0xA000 := by
      have := v.isLt
      rw [zext16_toNat]
      omega
    rw [busRead_ram (region_low hlow), zext16_eq_ofNat]
  rw [zeroPagePointer, hiLo_toNat, hzp, hzp, BitVec.toNat_add, Nat.mul_comm]
  rfl

/-- Settles O29: indexing is addition of words of the width at which the mode wraps. -/
theorem addressingModesCompute : Obligations.AddressingModesCompute := by
  intro z adr s
  refine ⟨zext16_toNat z, ?_, ?_, rfl, ?_, ?_, ?_, ?_⟩
  · exact (zext16_toNat _).trans (BitVec.toNat_add z s.x)
  · exact (zext16_toNat _).trans (BitVec.toNat_add z s.y)
  · exact (BitVec.toNat_add adr _).trans (by rw [zext16_toNat])
  · exact (BitVec.toNat_add adr _).trans (by rw [zext16_toNat])
  · refine (zeroPagePointer_toNat s (z + s.x)).trans ?_
    rw [BitVec.toNat_add, Nat.mod_add_mod]
  · refine (BitVec.toNat_add _ _).trans ?_
    rw [zext16_toNat]
    change ((zeroPagePointer s z).toNat + _) % _ = _
    rw [zeroPagePointer_toNat]

end Sys2Proof.Machine
end

section
/-! PROOFS. Round trips over the stack (41_stack.md, 44_control_transfer.md): what a push left, the pull
finds. -/

namespace Sys2Proof.Machine

/-! ### Push then pull, entry then return -/

/-- A packed status byte gives back every flag but B, which the flags before the pull keep (R20). -/
theorem flagsFrom_pack (f g : Flags) : flagsFrom f g.pack = { g with b := f.b } :=
  Flags.unpack_pack { g with b := f.b }

/-- Settles O6: the pull reads the cell of the push, and a packed status byte unpacks to its flags. -/
theorem pushThenPullRoundTrips : Obligations.PushThenPullRoundTrips := by
  intro s hwf
  have hpulled (v : Byte) (n : Nat) : pulled ((push v s).addCycles n) = v := by
    simp [pulled_eq, push_eq, Memory.read_write_same hwf]
  constructor
  · refine ⟨_, _, exec_pha s, exec_pla _, ?_⟩
    simp only [hpulled]
    simp [push_eq, State.addCycles, State.baseCycles, Nat.add_assoc]
  · refine ⟨_, _, exec_php s, exec_plp _, ?_⟩
    simp only [hpulled, statusByte_eq_pack, flagsFrom_pack]
    simp [push_eq, State.addCycles, State.baseCycles, Nat.add_assoc]

/-- Two pulls answer the word whose bytes lie in the two cells above SP. -/
theorem pulledAddr_of_cells {t : State} {w : Addr} {p : Byte} (hsp : t.sp = p - 2)
    (hhi : ramAt t (stackCell p) = hiByte w) (hlo : ramAt t (stackCell (p - 1)) = loByte w) : pulledAddr t = w := by
  have hsp1 : t.sp + 1 = p - 1 := by bv_omega
  have hsp2 : t.sp + 2 = p := by bv_omega
  rw [pulledAddr_eq_ofNat, hsp1, hsp2, hhi, hlo, ← hiLo_eq_ofNat, hiLo_hiByte_loByte]

/-- The subroutine's return finds the word that JSR pushed, PCnext - 1, and adds one. -/
theorem exec_jsr_rts (w : Addr) {s : State} (hwf : s.ram.wf = true) :
    ∃ t u, exec (.jsr w) s = .next t ∧ exec .rts t = .next u ∧
      u = { s with ram := u.ram, cyc := s.cyc + (s.baseCycles 0x20 + s.baseCycles 0x60) } := by
  obtain ⟨-, t, hjsr, ht, hcells⟩ := jsrPushesReturnAddress (loByte w) (hiByte w) s hwf
  rw [hiLo_hiByte_loByte] at hjsr ht
  have hne : s.sp - 1 ≠ s.sp := by bv_omega
  have hword : pulledAddr t = s.pc - 1 := by
    apply pulledAddr_of_cells (p := s.sp)
    · rw [ht]
    · rw [hcells, if_pos rfl, hiByte_eq_ofNat]
    · rw [hcells, if_neg (stackCell_inj.not.mpr hne), if_pos rfl, loByte_eq_ofNat]
  refine ⟨t, _, hjsr, exec_rts t, ?_⟩
  rw [hword, sub_add_cancel]
  generalize t.ram = m at ht
  subst ht
  simp only [sub_add_cancel, State.baseCycles, Nat.add_assoc]

/-- The handler's return finds the three bytes that BRK pushed; the word is taken as it is (R104). -/
theorem exec_brk_rti {s : State} (hwf : s.ram.wf = true) :
    ∃ t u, exec .brk s = .next t ∧ exec .rti t = .next u ∧
      u = { s with ram := u.ram, pc := s.pc + 1, flags := { s.flags with b := true },
                   cyc := s.cyc + (s.baseCycles 0x00 + s.baseCycles 0x40) } := by
  obtain ⟨-, t, hbrk, ht, -, -, hcells⟩ := brkTakesTheTrap s hwf
  have hne1 : s.sp - 1 ≠ s.sp := by bv_omega
  have hne2 : s.sp - 2 ≠ s.sp := by bv_omega
  have hne3 : s.sp - 2 ≠ s.sp - 1 := by bv_omega
  have hsp : t.sp + 1 = s.sp - 2 := by
    have : t.sp = s.sp - 3 := by rw [ht]
    bv_omega
  have hstatus : pulled t = s.flags.pack := by
    rw [pulled_eq_ramAt_stackCell, hsp, hcells, if_neg (stackCell_inj.not.mpr hne2),
      if_neg (stackCell_inj.not.mpr hne3), if_pos rfl, statusByte_eq_pack]
  have hword : pulledAddr (afterPull t) = s.pc + 1 := by
    apply pulledAddr_of_cells (p := s.sp)
    · exact hsp
    · change ramAt t _ = _
      rw [hcells, if_pos rfl, hiByte_eq_ofNat]
    · change ramAt t _ = _
      rw [hcells, if_neg (stackCell_inj.not.mpr hne1), if_pos rfl, loByte_eq_ofNat]
  refine ⟨t, _, hbrk, exec_rti t, ?_⟩
  rw [hstatus, hword, flagsFrom_pack]
  generalize t.ram = m at ht
  subst ht
  simp only [sub_add_cancel, State.baseCycles, Nat.add_assoc]

/-- Settles O22: the return pulls the cells that the entry pushed, which O18 and O20 give. -/
theorem returnsUndoTheirEntries : Obligations.ReturnsUndoTheirEntries :=
  fun w _ hwf => ⟨exec_jsr_rts w hwf, exec_brk_rti hwf⟩

end Sys2Proof.Machine
end

section
/-! PROOFS. ADC and SBC (42_arith_logic.md): overflow as the exact signed range, and decimal mode on digits. -/

namespace Sys2Proof.Machine

/-! ### The immediate forms -/

theorem exec_adcImm (m : Byte) (s : State) :
    exec (.adcImm m) s = .next { afterReading ⟨[0x69, m], .adcImm m, .imm m, 2⟩ s with
      a := (adcOf s.flags s.a m).r, flags := arithFlags s.flags (adcOf s.flags s.a m) } :=
  (adcAddsWithCarry m 0 0 s _ (.head _)).2

theorem exec_sbcImm (m : Byte) (s : State) :
    exec (.sbcImm m) s = .next { afterReading ⟨[0xE9, m], .sbcImm m, .imm m, 2⟩ s with
      a := (sbcOf s.flags s.a m).r, flags := arithFlags s.flags (sbcOf s.flags s.a m) } :=
  (sbcSubtractsWithBorrow m 0 0 s _ (.head _)).2

/-! ### Binary mode: V is signed overflow -/

/-- Two bytes and a carry: the sign of the sum differs from the one sign of the operands exactly where the exact sum
leaves the signed range. -/
theorem signs_differ_iff (a m : Byte) (c : Bool) :
    (a.msb == m.msb && (BitVec.ofNat 8 (a.toNat + m.toNat + c.toNat)).msb != a.msb) = true ↔
      ¬ (-128 ≤ a.toInt + m.toInt + (c.toNat : Int) ∧ a.toInt + m.toInt + (c.toNat : Int) ≤ 127) := by
  have ha := a.isLt
  have hm := m.isLt
  have hc := c.toNat_le
  simp only [Bool.and_eq_true, beq_iff_eq, bne_iff_ne, BitVec.msb_eq_decide, decide_eq_decide, ne_eq,
    BitVec.toNat_ofNat, BitVec.toInt_eq_toNat_cond]
  omega

/-- The complement is the negation less one, which makes a difference with borrow a sum with carry (R81). -/
theorem toInt_complement (m : Byte) : (~~~m).toInt = - m.toInt - 1 := by
  have hm := m.isLt
  rw [BitVec.toInt_eq_toNat_cond, BitVec.toInt_eq_toNat_cond, BitVec.toNat_not]
  omega

theorem sbc_signs_differ_iff (a m : Byte) (c : Bool) :
    (a.msb != m.msb && (BitVec.ofNat 8 (a.toNat + (255 - m.toNat) + c.toNat)).msb != a.msb) = true ↔
      ¬ (-128 ≤ a.toInt - m.toInt - (1 - (c.toNat : Int)) ∧ a.toInt - m.toInt - (1 - (c.toNat : Int)) ≤ 127) := by
  have hsum := signs_differ_iff a (~~~m) c
  have hnat : (~~~m).toNat = 255 - m.toNat := BitVec.toNat_not
  have hmsb : (a.msb == (~~~m).msb) = (a.msb != m.msb) := by
    rw [BitVec.msb_not]
    cases a.msb <;> cases m.msb <;> rfl
  rw [hmsb, hnat, toInt_complement] at hsum
  rw [hsum]
  omega

/-- Settles O9: overflow is the sign test of the sum, or of the sum with the complement for the difference. -/
theorem binaryOverflowIsSignedRange : Obligations.BinaryOverflowIsSignedRange := by
  intro m s hd
  refine ⟨⟨_, exec_adcImm m s, ?_⟩, ⟨_, exec_sbcImm m s, ?_, ?_⟩⟩
  · change (adcOf s.flags s.a m).v = true ↔ _
    rw [adcOf, if_pos hd]
    exact signs_differ_iff s.a m s.flags.c
  · change (sbcOf s.flags s.a m).v = true ↔ _
    rw [sbcOf, if_pos hd]
    exact sbc_signs_differ_iff s.a m s.flags.c
  · change (sbcOf s.flags s.a m).c = true ↔ _
    have hm := m.isLt
    have hc := s.flags.c.toNat_le
    rw [sbcOf, if_pos hd]
    simp only [decide_eq_true_iff]
    omega

/-! ### Decimal mode on digits (R80, R81) -/

/-- Both nibbles are decimal digits. -/
structure IsDecimal (v : Byte) : Prop where
  low : v.toNat % 16 < 10
  high : v.toNat / 16 < 10

/-- The number that the two digits of a byte write. -/
def decimalValue (v : Byte) : Nat := 10 * (v.toNat / 16) + v.toNat % 16

/-- The byte that two digits make writes their number. -/
theorem decimalValue_ofNat {hi lo n : Nat} (hhi : hi < 10) (hlo : lo < 10) (hn : 10 * hi + lo = n) :
    IsDecimal (BitVec.ofNat 8 (16 * (hi % 16) + lo % 16)) ∧
    decimalValue (BitVec.ofNat 8 (16 * (hi % 16) + lo % 16)) = n := by
  have hv : (BitVec.ofNat 8 (16 * (hi % 16) + lo % 16)).toNat = 16 * hi + lo := by
    rw [BitVec.toNat_ofNat]
    omega
  have hq : (16 * hi + lo) / 16 = hi := by omega
  have hr : (16 * hi + lo) % 16 = lo := by omega
  exact ⟨⟨by rwa [hv, hr], by rwa [hv, hq]⟩, by rw [decimalValue, hv, hq, hr, hn]⟩

theorem decimalValue_ofInt {hi lo : Int} {n : Nat} (hhi : 0 ≤ hi ∧ hi < 10) (hlo : 0 ≤ lo ∧ lo < 10)
    (hn : 10 * hi + lo = n) :
    IsDecimal (BitVec.ofInt 8 (16 * (hi % 16) + lo % 16)) ∧
    decimalValue (BitVec.ofInt 8 (16 * (hi % 16) + lo % 16)) = n := by
  obtain ⟨h, rfl⟩ := Int.eq_ofNat_of_zero_le hhi.1
  obtain ⟨l, rfl⟩ := Int.eq_ofNat_of_zero_le hlo.1
  exact decimalValue_ofNat (by omega) (by omega) (by omega)

theorem adcOf_decimal {f : Flags} {a m : Byte} (hd : f.d = true) (ha : IsDecimal a) (hm : IsDecimal m) :
    (IsDecimal (adcOf f a m).r ∧ decimalValue (adcOf f a m).r = (decimalValue a + decimalValue m + f.c.toNat) % 100) ∧
    ((adcOf f a m).c = true ↔ 100 ≤ decimalValue a + decimalValue m + f.c.toNat) := by
  obtain ⟨ha0, ha1⟩ := ha
  obtain ⟨hm0, hm1⟩ := hm
  have hc := f.c.toNat_le
  rw [adcOf, if_neg (by rw [hd]; decide)]
  simp only [decide_eq_true_iff]
  simp only [decimalValue.eq_1 a, decimalValue.eq_1 m]
  refine ⟨decimalValue_ofNat ?_ ?_ ?_, ?_⟩
  · split_ifs <;> omega
  · split <;> omega
  · split_ifs <;> omega
  · split <;> omega

theorem sbcOf_decimal {f : Flags} {a m : Byte} (hd : f.d = true) (ha : IsDecimal a) (hm : IsDecimal m) :
    (IsDecimal (sbcOf f a m).r ∧
      decimalValue (sbcOf f a m).r = (decimalValue a + 100 - decimalValue m - (1 - f.c.toNat)) % 100) ∧
    ((sbcOf f a m).c = true ↔ decimalValue m + (1 - f.c.toNat) ≤ decimalValue a) := by
  obtain ⟨ha0, ha1⟩ := ha
  obtain ⟨hm0, hm1⟩ := hm
  have hc := f.c.toNat_le
  rw [sbcOf, if_neg (by rw [hd]; decide)]
  simp only [decide_eq_true_iff]
  simp only [decimalValue.eq_1 a, decimalValue.eq_1 m]
  refine ⟨decimalValue_ofInt ?_ ?_ ?_, ?_⟩
  · omega
  · omega
  · omega
  · omega

/-- Settles O10: the digits carry and borrow as in the sums of the two nibbles. -/
theorem decimalModeComputesOnDigits : Obligations.DecimalModeComputesOnDigits := by
  intro m s hd ha0 ha1 hm0 hm1
  obtain ⟨⟨hra, hva⟩, hca⟩ := adcOf_decimal hd ⟨ha0, ha1⟩ ⟨hm0, hm1⟩
  obtain ⟨⟨hrs, hvs⟩, hcs⟩ := sbcOf_decimal hd ⟨ha0, ha1⟩ ⟨hm0, hm1⟩
  exact ⟨⟨_, exec_adcImm m s, hra.low, hra.high, hva, hca⟩, ⟨_, exec_sbcImm m s, hrs.low, hrs.high, hvs, hcs⟩⟩

end Sys2Proof.Machine
end

section
/-! PROOFS. The VideoChip (60_exceptions.md section 6): the raster's walk and what each pixel clock paints, and
the layers of a pixel. -/

namespace Sys2Proof.Machine

/-! ### The walk of the raster (R139, R140) -/

/-- Settles O53: so does each pixel clock. -/
theorem renderTouchesOnlyVideo : Obligations.RenderTouchesOnlyVideo :=
  fun p n s => ⟨render p.video n s, rfl, pixelClocks_sameButVideo p.video (8 * n) s⟩

theorem rasterIndex_lt (s : State) : rasterIndex s < 157248 := by
  have hx := s.rx.isLt
  have hy := s.ry.isLt
  unfold rasterIndex
  omega

theorem rasterIndex_pixelClocks (p : Config.VideoParams) (k : Nat) (s : State) :
    rasterIndex (pixelClocks p k s) = (rasterIndex s + k) % 157248 := by
  induction k with
  | zero => rw [pixelClocks, Nat.add_zero, Nat.mod_eq_of_lt (rasterIndex_lt s)]
  | succ k ih => rw [pixelClocks_succ, rasterIndex_advance, rasterIndex_paint, ih, Nat.mod_add_mod, Nat.add_assoc]

/-- Settles O54: by pixel clocks, of which a cycle has eight. -/
theorem renderAdvancesTheRaster : Obligations.RenderAdvancesTheRaster :=
  fun p n s => rasterIndex_pixelClocks p (8 * n) s

/-- From the origin the walk is at position `k` after `k` clocks, to the end of the grid. -/
theorem rasterIndex_fromOrigin (p : Config.VideoParams) {s : State} (h : rasterIndex s = 0) {k : Nat}
    (hk : k < 157248) : rasterIndex (pixelClocks p k s) = k := by
  rw [rasterIndex_pixelClocks, h, Nat.zero_add, Nat.mod_eq_of_lt hk]

theorem back_fromOrigin (p : Config.VideoParams) {s : State} (h : rasterIndex s = 0) {k : Nat} (hk : k < 157248) :
    (pixelClocks p k s).back = s.back := by
  induction k with
  | zero => rfl
  | succ k ih =>
    have hk' : k < 157248 := Nat.lt_of_succ_lt hk
    rw [pixelClocks_succ, back_advance, rasterIndex_paint, rasterIndex_fromOrigin p h hk', if_neg (by omega),
      back_paint, ih hk']

/-- The last clock of a frame publishes. -/
theorem back_wholeFrame (p : Config.VideoParams) {s : State} (h : rasterIndex s = 0) :
    (pixelClocks p 157248 s).back = (pixelClocks p 157248 s).front := by
  rw [pixelClocks_succ p 157247, back_advance, rasterIndex_paint, rasterIndex_fromOrigin p h (by decide), if_pos rfl,
    front_advance]

/-- Settles O55: BACK changes only at the last position of the grid, which the last of 157248 clocks reaches. -/
theorem frameIsPublishedAtTheWrap : Obligations.FrameIsPublishedAtTheWrap := by
  intro p s h
  refine ⟨fun n hn => back_fromOrigin p h (by omega), back_wholeFrame p h, ?_⟩
  rw [renderAdvancesTheRaster, h]

/-! ### What a frame paints (R138, R141) -/

/-- The raster position of frame-buffer pixel (fx, fy), in scan order. -/
def scanPosition (p : Config.VideoParams) (fx fy : Nat) : Nat := (fy + p.vBlankTop) * 504 + (fx + p.hBlankLeft)

/-- A pixel clock paints the pixel at the raster position, and no other. -/
theorem pixel_paint (p : Config.VideoParams) (hp : p.wellFormed = true) {s : State} (hwf : s.front.wf = true)
    {fx fy : Nat} (hx : fx < 400) (hy : fy < 280) : (paint p s).front.pixel fx fy =
      if rasterIndex s = scanPosition p fx fy then rgba p (pixelColour p s fx fy) else s.front.pixel fx fy := by
  have hrx := s.rx.isLt
  obtain ⟨hH, hV⟩ : p.hBlankLeft ≤ 104 ∧ p.vBlankTop ≤ 32 := by simpa [Config.VideoParams.wellFormed] using hp
  have hat : rasterIndex s = scanPosition p fx fy ↔ s.rx.val = fx + p.hBlankLeft ∧ s.ry.val = fy + p.vBlankTop := by
    unfold rasterIndex scanPosition
    omega
  rw [if_congr hat rfl rfl]
  unfold paint
  split
  · next hin =>
    dsimp only
    split
    · next h =>
      obtain ⟨h1, h2⟩ := h
      rw [h1, h2, Nat.add_sub_cancel, Nat.add_sub_cancel, FrameBuffer.pixel_paint_same hwf]
    · next h => exact FrameBuffer.pixel_paint_other _ _ (by omega) hx (by omega)
  · next hout => rw [if_neg (by omega)]

theorem front_wf_pixelClocks (p : Config.VideoParams) (k : Nat) {s : State} (h : s.front.wf = true) :
    (pixelClocks p k s).front.wf = true := by
  induction k with
  | zero => exact h
  | succ k ih =>
    rw [pixelClocks_succ, front_advance]
    exact paint_wf p ih

theorem pixelColour_pixelClocks (p : Config.VideoParams) (k : Nat) (s : State) (fx fy : Nat) :
    pixelColour p (pixelClocks p k s) fx fy = pixelColour p s fx fy := by
  rw [pixelClocks_sameButVideo]
  exact pixelColour_congr p rfl rfl fx fy

/-- From the origin, `k` clocks have painted every pixel before position `k`. -/
theorem pixel_fromOrigin (p : Config.VideoParams) (hp : p.wellFormed = true) {s : State} (hwf : s.front.wf = true)
    (h : rasterIndex s = 0) {fx fy : Nat} (hx : fx < 400) (hy : fy < 280) {k : Nat} (hk : k ≤ 157248)
    (hpos : scanPosition p fx fy < k) :
    (pixelClocks p k s).front.pixel fx fy = rgba p (pixelColour p s fx fy) := by
  induction k with
  | zero => exact absurd hpos (Nat.not_lt_zero _)
  | succ k ih =>
    rw [pixelClocks_succ, front_advance, pixel_paint p hp (front_wf_pixelClocks p k hwf) hx hy,
      rasterIndex_fromOrigin p h hk, pixelColour_pixelClocks]
    split
    · rfl
    · next hne => exact ih (Nat.le_of_lt hk) (by omega)

/-- Settles O56: all of the frame's positions lie before the end of the grid, so each has been painted. -/
theorem wholeFramePaintsEveryPixel : Obligations.WholeFramePaintsEveryPixel := by
  intro p s hp hwf h fx fy hx hy
  have hpixel : (render p 19656 s).back.pixel fx fy = rgba p (pixelColour p s fx fy) := by
    have hclocks : render p 19656 s = pixelClocks p 157248 s := rfl
    obtain ⟨hH, hV⟩ : p.hBlankLeft ≤ 104 ∧ p.vBlankTop ≤ 32 := by simpa [Config.VideoParams.wellFormed] using hp
    rw [hclocks, back_wholeFrame p h]
    exact pixel_fromOrigin p hp hwf h hx hy (k := 157248) (by decide) (by unfold scanPosition; omega)
  have hbytes := FrameBuffer.byte_pixel (render p 19656 s).back fx fy
  rw [hpixel] at hbytes
  exact ⟨hpixel, hbytes⟩

/-! ### The draws (R147) -/

theorem paint_draws (p : Config.VideoParams) (s : State) (d : Nat) :
    paint p { s with draws := d } = { paint p s with draws := d } := by
  have hcolour (fx fy : Nat) : pixelColour p { s with draws := d } fx fy = pixelColour p s fx fy :=
    pixelColour_congr (s := s) (t := { s with draws := d }) p rfl rfl fx fy
  unfold paint
  simp only [hcolour]
  split <;> rfl

theorem advance_draws (s : State) (d : Nat) : advance { s with draws := d } = { advance s with draws := d } := by
  unfold advance
  dsimp only
  split
  · rfl
  · split <;> rfl

theorem pixelClocks_draws (p : Config.VideoParams) (k : Nat) (s : State) (d : Nat) :
    pixelClocks p k { s with draws := d } = { pixelClocks p k s with draws := d } := by
  induction k with
  | zero => rfl
  | succ k ih => rw [pixelClocks_succ, ih, paint_draws, advance_draws, ← pixelClocks_succ]

/-- Settles O60: by pixel clocks, which the draws pass through. -/
theorem renderIndependentOfDraws : Obligations.RenderIndependentOfDraws :=
  fun p n d s => pixelClocks_draws p (8 * n) s d

/-! ### The layers (R141 to R145) -/

theorem colourIndex_toNat (v : Byte) : (colourIndex v).toNat = v.toNat % 16 := BitVec.toNat_setWidth 4 v

/-- Painting over in one order leaves the first opaque layer of the reverse order. -/
theorem foldl_over_eq_find {ι γ : Type} (opaqueAt : ι → Bool) (colour : ι → γ) (c : γ) (l : List ι) :
    l.reverse.foldl (fun c i => if opaqueAt i then colour i else c) c = ((l.find? opaqueAt).map colour).getD c := by
  rw [List.foldl_reverse]
  induction l with
  | nil => rfl
  | cons i l ih =>
    rw [List.foldr_cons, List.find?_cons]
    cases opaqueAt i with
    | true => rfl
    | false => exact ih

theorem contentColour_eq (p : Config.VideoParams) (s : State) (cx cy : Nat) : contentColour p s cx cy =
    ((firstOpaque p s cx cy).map (spriteColour s)).getD (if charBit s cx cy then p.fgColor else backgroundColour s) :=
  foldl_over_eq_find (fun i => spriteBit p s i cx cy) (spriteColour s) _ [0, 1, 2, 3, 4, 5, 6, 7]

/-- Settles O57: sprites are painted over from 7 down to 0, so the lowest opaque one is left. -/
theorem pixelLayersInPriority : Obligations.PixelLayersInPriority := by
  intro p s fx fy
  constructor
  · intro hout
    rw [pixelColour, inContent, decide_eq_false hout, if_neg Bool.false_ne_true, borderColour, colourIndex_toNat]
  · intro h1 h2 h3 h4
    rw [pixelColour, inContent, decide_eq_true ⟨h1, h2, h3, h4⟩, if_pos rfl, contentColour_eq]
    cases firstOpaque p s (fx - 40) (fy - 40) with
    | some i => exact colourIndex_toNat _
    | none =>
      dsimp only [Option.map_none, Option.getD_none]
      split
      · rfl
      · exact colourIndex_toNat _

theorem busRead_ofNat_low (s : State) {k : Nat} (h : k < 0xA000) :
    busRead s (BitVec.ofNat 16 k) = ramAt s (BitVec.ofNat 16 k) := by
  refine busRead_ram (region_low ?_)
  rwa [toNat_ofNat_low h]

theorem vidRead_charRom (s : State) {k : Nat} (h : k < 4096) :
    vidRead s (BitVec.ofNat 16 (0xD000 + k)) = Config.charRom (BitVec.ofNat 12 k) := by
  have haddr : (BitVec.ofNat 16 (0xD000 + k)).toNat = 0xD000 + k := toNat_ofNat_addr (by omega)
  rw [vidRead, haddr, if_pos (by omega), Nat.add_sub_cancel_left]

/-- Settles O58: the screen code is read from RAM below the BASIC window, the glyph from CHAR_ROM. -/
theorem characterLayerReadsCharRom : Obligations.CharacterLayerReadsCharRom := by
  intro s cx cy hx hy
  have hcell : screenBase + cy / 8 * 40 + cx / 8 = 0x0400 + 40 * (cy / 8) + cx / 8 := by
    rw [screenBase, Nat.mul_comm]
  have hcode := (ramAt s (BitVec.ofNat 16 (0x0400 + 40 * (cy / 8) + cx / 8))).isLt
  rw [charBit, hcell, busRead_ofNat_low s (by omega)]
  rw [charBase, Nat.add_assoc, vidRead_charRom s (by omega)]

/-- The bitmap bit of sprite `i` at column `col` and row `row` of its box (R145). -/
def bitmapBit (s : State) (i : Fin 8) (col row : Nat) : Bool :=
  (ramAt s (BitVec.ofNat 16 (64 * (ramAt s (BitVec.ofNat 16 (0x07F8 + i.val))).toNat + 3 * row + col / 8))).getLsbD
    (7 - col % 8)

/-- Sprite pointers and bitmaps lie below the BASIC window, so the CPU view's reads are RAM's. -/
theorem bitmapBit_eq_busRead (s : State) (i : Fin 8) {col row : Nat} (hcol : col < 24) (hrow : row < 21) :
    (busRead s (BitVec.ofNat 16 ((busRead s (BitVec.ofNat 16 (screenBase + 0x3F8 + i.val))).toNat * 64 + row * 3 +
      col / 8))).getLsbD (7 - col % 8) = bitmapBit s i col row := by
  have hi := i.isLt
  have hptr := (ramAt s (BitVec.ofNat 16 (0x07F8 + i.val))).isLt
  have hbase : screenBase + 0x3F8 = 0x07F8 := rfl
  rw [hbase, busRead_ofNat_low s (by omega), busRead_ofNat_low s (by omega), bitmapBit, Nat.mul_comm _ 64,
    Nat.mul_comm row]

/-- Settles O59: the box is the range of the subtractions, and inside it the bitmap bit decides. -/
theorem spriteLayerReadsItsBitmap : Obligations.SpriteLayerReadsItsBitmap := by
  intro p s i cx cy
  have hX : 256 * (s.vic[0x10].getLsbD i.val).toNat + (s.vic[2 * i.val]'(by omega)).toNat = spriteX s i := by
    rw [spriteX, Nat.mul_comm]
  rw [hX]
  change _ ↔ _ ∧ ∃ col row : Nat, col < 24 ∧ row < 21 ∧ spriteX s i + col = cx + p.spriteX0 ∧
    spriteY s i + row = cy + p.spriteY0 ∧ bitmapBit s i col row = true
  unfold spriteBit
  constructor
  · intro h
    dsimp only at h
    split at h
    · next hbox =>
      obtain ⟨hen, hbox⟩ := Bool.and_eq_true_iff.mp hbox
      obtain ⟨hc0, hc1, hr0, hr1⟩ := of_decide_eq_true hbox
      obtain ⟨col, hcol⟩ := Int.eq_ofNat_of_zero_le hc0
      obtain ⟨row, hrow⟩ := Int.eq_ofNat_of_zero_le hr0
      rw [hcol, hrow, Int.toNat_natCast, Int.toNat_natCast, bitmapBit_eq_busRead s i (by omega) (by omega)] at h
      exact ⟨hen, col, row, by omega, by omega, by omega, by omega, h⟩
    · exact absurd h Bool.false_ne_true
  · rintro ⟨hen, col, row, hc, hr, hcol, hrow, hbit⟩
    have hcol' : (cx : Int) + p.spriteX0 - spriteX s i = col := by omega
    have hrow' : (cy : Int) + p.spriteY0 - spriteY s i = row := by omega
    dsimp only
    rw [hcol', hrow', if_pos (by simp [hen, hc, hr]), Int.toNat_natCast, Int.toNat_natCast,
      bitmapBit_eq_busRead s i hc hr, hbit]

end Sys2Proof.Machine
end
